-- ==== Sys2Proof/Word.lean ====
section
/-! DEFINITION. The word widths of the block (20_memory.md R54) and the numbers of 00_scope.md §5. -/

namespace Sys2Proof

/-- A command word or trace word, 8 bits (R71). -/
abbrev Byte := BitVec 8

/-- A response, a status word, or a counter seen as its bit pattern, 32 bits (R54, R74). -/
abbrev Word := BitVec 32

/-- A table entry, a duty value or a sample: `u16` (R54, R10, R30). -/
abbrev Sample := BitVec 16

/-- A phase value of one encoder, `2·B + A` (R101). -/
abbrev Phase := BitVec 2

end Sys2Proof
end

