-- ==== Sys2Proof/Syntax.lean ====
section
/-! DEFINITION. What can arrive at the block: the ten operations of spec/opcode_table.json, and the pulses and words of
its input ports (30_encoding.md R70 to R82). -/

namespace Sys2Proof

/-- The two encoders (00_scope.md R7): encoder 0 is the tuning encoder, encoder 1 the function encoder. -/
inductive Encoder where
  | tuning
  | function
deriving DecidableEq, Repr, Inhabited

/-- The two status words RDSTAT selects (10_state.md R35, R36). -/
inductive StatusWord where
  | status0
  | status1
deriving DecidableEq, Repr, Inhabited

/-- The operations of the opcode map (R73), one constructor per row of spec/opcode_table.json.
An operand is decoded as R76 says, so an instruction holds no raw bits but the phase values of POLL. -/
inductive Instr where
  /-- `NOP` (R170). -/
  | nop
  /-- `DRAIN e` (R107). -/
  | drain (e : Encoder)
  /-- `TONE v`: `v = true` requests the tone (R139). -/
  | tone (v : Bool)
  /-- `START` (R140). -/
  | start
  /-- `STOP` (R141). -/
  | stop
  /-- `SETTX v`: `v = true` is transmit (R110). -/
  | settx (v : Bool)
  /-- `SETLOCK v`: `v = true` is locked (R111). -/
  | setlock (v : Bool)
  /-- `RDSTAT s` (R171). -/
  | rdstat (s : StatusWord)
  /-- `POLL p1, p0`, an event of the poll strobe (R105). -/
  | poll (p1 p0 : Phase)
  /-- `ETICK`, an event of the envelope timer (R133). -/
  | etick
deriving DecidableEq, Repr, Inhabited

/-- True of the operations that are host commands; POLL and ETICK are events (R75). -/
def Instr.isCommand : Instr → Bool
  | .nop | .drain _ | .tone _ | .start | .stop | .settx _ | .setlock _ | .rdstat _ => true
  | .poll _ _ | .etick => false

/-- The four phase-line inputs as one POLL samples them: true is a high level (R70, R101). -/
structure PhaseLines where
  enc0A : Bool
  enc0B : Bool
  enc1A : Bool
  enc1B : Bool
deriving DecidableEq, Repr, Inhabited

/-- One thing that happens at the block's inputs: an operation of one agent (R6), a word of a stimulus trace (R82), or
a clock cycle of reset (R230). `timerOk` is the level of the `timer_ok` port where the environment has fixed it
(R16, R70; the `[ok=…]` mark of 95_test_vectors.md §0), and `none` where it is left open. -/
inductive Arrival where
  /-- The host's command port: `cmd_valid` with `w` on `cmd`. -/
  | command (w : Byte) (timerOk : Option Bool)
  /-- One pulse of `poll_strobe` with these levels on the phase lines. -/
  | pollStrobe (lines : PhaseLines)
  /-- One pulse of `timer_tick`. -/
  | timerTick
  /-- One word of a stimulus trace (R82). -/
  | traceWord (w : Byte) (timerOk : Option Bool)
  /-- One clock cycle with `rst_n = 0`. -/
  | resetCycle
deriving DecidableEq, Repr, Inhabited

end Sys2Proof
end

