-- ==== Sys2Proof/Config.lean ====
section
/-! DEFINITION. The implementation parameters of 00_scope.md §4 with their predicate WF, and the free values. Every
`opaque` here has no body: nothing in Lean can learn its value, so a claim holds whatever the chip's value is. -/

namespace Sys2Proof

/-- The parameters an implementation fixes (R10 to R13). -/
structure RawParams where
  /-- `MID`, the PWM midpoint (R11). -/
  mid : Sample := 0
  /-- `ATTEN`, the attenuation factor (R12). -/
  atten : Nat := 1
  /-- `PWM_WRAP`, the wrap count of the PWM channel (R13). -/
  pwmWrap : Sample := 0
  /-- `ATTACK_TABLE`, 64 entries (R9, R10). -/
  attackTable : Vector Sample 64 := Vector.replicate 64 0
  /-- `SUSTAIN_TABLE`, 16 entries (R9, R10). -/
  sustainTable : Vector Sample 16 := Vector.replicate 16 0
deriving DecidableEq, Repr

/-- First clause of WF: `ATTEN ≥ 1` (R14). -/
abbrev RawParams.AttenPositive (p : RawParams) : Prop := 1 ≤ p.atten

/-- Second clause of WF: `MID ≤ PWM_WRAP` (R14). -/
abbrev RawParams.MidInWrap (p : RawParams) : Prop := p.mid ≤ p.pwmWrap

/-- Third clause of WF, for the attack table (R14). -/
abbrev RawParams.AttackInWrap (p : RawParams) : Prop := ∀ i : Fin 64, p.attackTable[i] ≤ p.pwmWrap

/-- Third clause of WF, for the sustain table (R14). -/
abbrev RawParams.SustainInWrap (p : RawParams) : Prop := ∀ i : Fin 16, p.sustainTable[i] ≤ p.pwmWrap

/-- The well-formedness predicate `WF` (R14). -/
abbrev RawParams.WF (p : RawParams) : Prop :=
  p.AttenPositive ∧ p.MidInWrap ∧ p.AttackInWrap ∧ p.SustainInWrap

/-- A configuration the model accepts: one that fails `WF` cannot be given to the machine at all (R14, R233; log 7). -/
structure Params extends RawParams where
  wf : toRawParams.WF := by decide
deriving Inhabited

/-- Parameters of the platform that no rule reads (R15, R40, R51; log 14). -/
structure Platform where
  /-- `TICK_PERIOD_US`, nominally 89. -/
  tickPeriodUs : Nat
  /-- `POLL_PERIOD`. -/
  pollPeriod : Nat
  /-- `PWM_IDLE_LEVEL`, the pin's level while the channel is disabled. -/
  pwmIdleLevel : Bool
  /-- `ECEU_BASE`, where a platform maps the ports. -/
  eceuBase : Nat
deriving DecidableEq, Repr, Inhabited

/-- The chip's configuration, fixed for the machine (R10 to R14, R233; log 7). -/
opaque Config.params : Params

/-- The platform's timing and placement (R15, R40, R51; log 14). -/
opaque Config.platform : Platform

/-- The free draw `TIMER_OK` of the n-th draw: could the platform arm the timer (R16; log 4). -/
opaque Config.timerOk : Nat → Bool

/-- What arrives when nothing is known yet of the next arrival: any agent may act next (R59, I8, I9; log 1). -/
opaque Config.arrival : Nat → Arrival

/-- What a read of the sustain table past its 16 entries gives: R50 says no such read exists, and in the states of
R38 none happens (log 8). -/
opaque Config.sustainBeyond : BitVec 6 → Sample

end Sys2Proof
end

