-- ==== Sys2Proof/WellFormed.lean ====
section
/-! DEFINITION. The formats of a command word and the check that an operand fits its format (30_encoding.md R72, R76).
The check of a configuration, WF (R14), stands in Config.lean beside the parameters it is about. -/

namespace Sys2Proof

/-- The four formats (R72). -/
inductive Format where
  | f0
  | f1
  | fp
  | fe
deriving DecidableEq, Repr

/-- Which `arg` fields a format admits: the required-zero bits are zero (R72). -/
def Format.admits : Format → BitVec 4 → Bool
  | .f0, arg => arg == 0
  | .f1, arg => arg.extractLsb 3 1 == 0
  | .fp, _ => true
  | .fe, arg => arg == 0

/-- The format of each operation (R73). -/
def Instr.format : Instr → Format
  | .nop | .start | .stop => .f0
  | .drain _ | .tone _ | .settx _ | .setlock _ | .rdstat _ => .f1
  | .poll _ _ => .fp
  | .etick => .fe

/-- The number of an encoder, one operand bit (R76). -/
def Encoder.bit : Encoder → Bool
  | .tuning => false
  | .function => true

/-- The number of a status word, one operand bit (R76). -/
def StatusWord.bit : StatusWord → Bool
  | .status0 => false
  | .status1 => true

/-- A one-bit operand in `arg[0]` (R72, R76). -/
def bitArg (v : Bool) : BitVec 4 := 0#3 ++ BitVec.ofBool v

/-- The `arg` field an operation is written with (R72, R76). -/
def Instr.arg : Instr → BitVec 4
  | .nop | .start | .stop | .etick => 0
  | .drain e => bitArg e.bit
  | .tone v | .settx v | .setlock v => bitArg v
  | .rdstat s => bitArg s.bit
  | .poll p1 p0 => p1 ++ p0

/-- An instruction is well formed when its operand field fits its format (R72). -/
def Instr.wf (i : Instr) : Bool := i.format.admits i.arg

end Sys2Proof
end

