-- ==== Sys2Proof/Decode.lean ====
section
/-! DEFINITION. The decoders of the command port and of a stimulus trace, total on every word (30_encoding.md R71 to
R79), and after them the encoder. -/

namespace Sys2Proof

/-- `op = w[7:4]` (R71). -/
def opField (w : Byte) : BitVec 4 := w.extractLsb 7 4

/-- `arg = w[3:0]` (R71). -/
def argField (w : Byte) : BitVec 4 := w.extractLsb 3 0

/-- Why a command word is illegal: the clauses (a) to (d) of R77. -/
inductive IllegalWord where
  /-- (a) `op` is 0xA to 0xF. -/
  | reservedOp
  /-- (b) `op` is 0x8 or 0x9, an event encoding on the command port. -/
  | eventOnCommandPort
  /-- (c) an operation without operand, and `arg ≠ 0`. -/
  | argNotZero
  /-- (d) an operation with a one-bit operand, and `arg[3:1] ≠ 0`. -/
  | argHighBitsNotZero
deriving DecidableEq, Repr

/-- An operation of format F0: `arg` must be 0 (R72, R77 (c)). -/
def decodeF0 (i : Instr) (arg : BitVec 4) : Except IllegalWord Instr :=
  if Format.f0.admits arg then .ok i else .error .argNotZero

/-- An operation of format F1: `arg[3:1]` must be 0 and `arg[0]` is the operand (R72, R76, R77 (d)). -/
def decodeF1 (mk : Bool → Instr) (arg : BitVec 4) : Except IllegalWord Instr :=
  if Format.f1.admits arg then .ok (mk arg[0]) else .error .argHighBitsNotZero

/-- The encoder a bit numbers (R76). -/
def Encoder.ofBit : Bool → Encoder
  | false => .tuning
  | true => .function

/-- The status word a bit numbers (R76). -/
def StatusWord.ofBit : Bool → StatusWord
  | false => .status0
  | true => .status1

/-- `decode_cmd`, the decoder of the host command port (R79). -/
def decodeCmd (w : Byte) : Except IllegalWord Instr :=
  let arg := argField w
  match (opField w).toNat with
  | 0x0 => decodeF0 .nop arg
  | 0x1 => decodeF1 (fun b => .drain (Encoder.ofBit b)) arg
  | 0x2 => decodeF1 .tone arg
  | 0x3 => decodeF0 .start arg
  | 0x4 => decodeF0 .stop arg
  | 0x5 => decodeF1 .settx arg
  | 0x6 => decodeF1 .setlock arg
  | 0x7 => decodeF1 (fun b => .rdstat (StatusWord.ofBit b)) arg
  | 0x8 => .error .eventOnCommandPort
  | 0x9 => .error .eventOnCommandPort
  | _ => .error .reservedOp

/-- What the trace reader makes of a word (R78, R79, R82). -/
inductive TraceReading where
  /-- The word is this operation. -/
  | operation (i : Instr)
  /-- The word has a command's `op` and is illegal as a command. -/
  | illegal (r : IllegalWord)
  /-- The reader refuses the word: it is no event (R78). -/
  | notAnEvent
deriving DecidableEq, Repr

/-- `decode_trace`, the decoder of a stimulus trace (R78, R79). -/
def decodeTrace (w : Byte) : TraceReading :=
  match (opField w).toNat with
  | 0x8 => .operation (.poll ((argField w).extractLsb 3 2) ((argField w).extractLsb 1 0))
  | 0x9 => if Format.fe.admits (argField w) then .operation .etick else .notAnEvent
  | 0xA | 0xB | 0xC | 0xD | 0xE | 0xF => .notAnEvent
  | _ =>
    match decodeCmd w with
    | .ok i => .operation i
    | .error r => .illegal r

/-- The host's question: the instruction in a word of `nbits` bits with value `w`. Every instruction is one byte, and
the table's words are trace words, so that POLL and ETICK are read as the events they encode (R75). -/
def decodeTableWord (nbits w : Nat) : Option Instr :=
  if nbits ≤ 8 ∧ w < 2 ^ nbits then
    match decodeTrace (BitVec.ofNat 8 w) with
    | .operation i => some i
    | .illegal _ => none
    | .notAnEvent => none
  else none

/-- The `op` field of each operation (R73). -/
def Instr.op : Instr → BitVec 4
  | .nop => 0x0
  | .drain _ => 0x1
  | .tone _ => 0x2
  | .start => 0x3
  | .stop => 0x4
  | .settx _ => 0x5
  | .setlock _ => 0x6
  | .rdstat _ => 0x7
  | .poll _ _ => 0x8
  | .etick => 0x9

/-- The word of an instruction (R71, R73). -/
def encode (i : Instr) : Byte := i.op ++ i.arg

end Sys2Proof
end

