-- ==== Sys2Proof/Machine/State.lean ====
section
/-! DEFINITION. The state of the block (10_state.md R20 to R34), with the response port, the environment's inputs and
the trace record beside it; the reset state (70_reset_and_hazards.md R230, R231); and the ways a step can stop. -/

namespace Sys2Proof.Machine

/-- The states of a quadrature decoder, numbered 0 to 6; the value 7 is never held (R21; log 6). -/
inductive DecState where
  | rStart
  | rCwFinal
  | rCwBegin
  | rCwNext
  | rCcwBegin
  | rCcwFinal
  | rCcwNext
deriving DecidableEq, Repr, Inhabited

/-- The envelope states, numbered 0 to 3 (R26; log 6). -/
inductive Env where
  | idle
  | attack
  | sustain
  | release
deriving DecidableEq, Repr, Inhabited

/-- The two error conditions (60_exceptions.md R200, R201). -/
inductive ErrorCause where
  /-- `E_ILLCMD`, cause code 1. -/
  | illegalCommand
  /-- `E_TIMER`, cause code 2. -/
  | timerUnavailable
deriving DecidableEq, Repr

/-- What the reader of a run writes down (30_encoding.md R82): a command's response with the error it raised, if one
(log 17), or an ETICK word that was skipped. -/
inductive Entry where
  | response (r : Word) (cause : Option ErrorCause)
  | noEvent
deriving DecidableEq, Repr

/-- The state of the machine. The first fourteen fields are the tuple of R20 and the history of R34; `respValid` and
`resp` are output ports (R70; log 3); `record` is the trace record of R82 (log 3); the last three belong to the
environment (log 1, log 4). -/
structure State where
  /-- `DEC[0]`, the tuning encoder's decoder (R21). -/
  dec0 : DecState
  /-- `DEC[1]`, the function encoder's decoder (R21). -/
  dec1 : DecState
  /-- `CNT[0]`, a two's-complement 32-bit counter (R22). -/
  cnt0 : Word
  /-- `CNT[1]` (R22). -/
  cnt1 : Word
  /-- `TX` (R23). -/
  tx : Bool
  /-- `LOCK` (R24). -/
  lock : Bool
  /-- `TONE`, the tone-requested latch (R25). -/
  tone : Bool
  /-- `ENV` (R26). -/
  env : Env
  /-- `IDX` (R27). -/
  idx : BitVec 6
  /-- `ARMED` (R28). -/
  armed : Bool
  /-- `PWM_EN` (R29). -/
  pwmEn : Bool
  /-- `DUTY` (R30). -/
  duty : Sample
  /-- `ILL`, sticky (R31). -/
  ill : Bool
  /-- `SAMPLES`, oldest first (R34). -/
  samples : List Sample
  /-- The `resp_valid` port: a response is on `resp` (R70). -/
  respValid : Bool
  /-- The `resp` port: the response to the last command (R70, R74). -/
  resp : Word
  /-- The trace record, oldest first (R82). -/
  record : List Entry
  /-- The `timer_ok` input where the environment has fixed it; `none` leaves the draw open (R16, R70). -/
  timerOk : Option Bool
  /-- The arrivals already known, oldest first (R82, R59). -/
  stimulus : List Arrival
  /-- How many free values the run has taken. -/
  draws : Nat
deriving DecidableEq, Repr

/-- The block has no fault: it has no trap, and every operation completes (60_exceptions.md R202, R204; 20_memory.md
R62). No step ends in one. -/
inductive Fault where
deriving DecidableEq, Repr

/-- The reasons a step has no meaning. -/
inductive Refusal where
  /-- Raised by no arm of this model (every operation has its meaning); it would be safe. -/
  | notModelled (mnemonic : String)
  /-- Raised by `perform` at a trace word that is no event (30_encoding.md R78: "refused by the trace reader"). Safe:
  the block itself sees nothing of such a word. -/
  | notATraceWord (w : Byte)
deriving DecidableEq, Repr

/-- The reset state under a configuration (70_reset_and_hazards.md R231). -/
def State.resetWith (c : Params) : State where
  dec0 := .rStart
  dec1 := .rStart
  cnt0 := 0
  cnt1 := 0
  tx := false
  lock := false
  tone := false
  env := .idle
  idx := 0
  armed := false
  pwmEn := false
  duty := c.mid
  ill := false
  samples := []
  respValid := false
  resp := 0
  record := []
  timerOk := none
  stimulus := []
  draws := 0

/-- The machine right after reset (R230, R231). -/
def State.reset : State := State.resetWith Config.params

end Sys2Proof.Machine
end

