-- ==== Sys2Proof/Machine/Ops.lean ====
section
/-! DEFINITION. The named operations over the state: the encoder file, the response port, the two error conditions,
the draw TIMER_OK, the sample history, reset as a process, and taking the next arrival. -/

namespace Sys2Proof.Machine

/-- `DEC[e]` (10_state.md R21). -/
def State.dec (s : State) : Encoder → DecState
  | .tuning => s.dec0
  | .function => s.dec1

/-- `DEC[e] <- d`. -/
def State.setDec (s : State) (e : Encoder) (d : DecState) : State :=
  match e with
  | .tuning => { s with dec0 := d }
  | .function => { s with dec1 := d }

/-- `CNT[e]` (10_state.md R22). -/
def State.cnt (s : State) : Encoder → Word
  | .tuning => s.cnt0
  | .function => s.cnt1

/-- `CNT[e] <- v`. -/
def State.setCnt (s : State) (e : Encoder) (v : Word) : State :=
  match e with
  | .tuning => { s with cnt0 := v }
  | .function => { s with cnt1 := v }

/-- Put a response on the response port and in the record (30_encoding.md R70, R74, R82). -/
def State.answer (s : State) (r : Word) (cause : Option ErrorCause) : State :=
  { s with respValid := true, resp := r, record := s.record ++ [.response r cause] }

/-- `resp <- r` of a command that raises no error (30_encoding.md R74). -/
def State.respond (s : State) (r : Word) : State := s.answer r none

/-- `raise IllegalCommand()`: ILL is set, the response is 0, nothing else changes (60_exceptions.md R200). This is the
one exception a command word can raise; it saves nothing and enters no handler (R204), so there is no return (R205). -/
def State.illegalCommand (s : State) : State :=
  { s with ill := true }.answer 0 (some .illegalCommand)

/-- `TimerUnavailable`: the response is 0 and nothing changes (60_exceptions.md R201). -/
def State.timerUnavailable (s : State) : State := s.answer 0 (some .timerUnavailable)

/-- The cause code of an error (R200, R201). -/
def ErrorCause.code : ErrorCause → Nat
  | .illegalCommand => 1
  | .timerUnavailable => 2

/-- The draw TIMER_OK: the platform's answer where it is fixed, else a free value (00_scope.md R16; log 4). -/
def State.timerAnswer (s : State) : Bool :=
  match s.timerOk with
  | some b => b
  | none => Config.timerOk s.draws

/-- After a draw: an answer is used once, and each further attempt takes a fresh one (R16, R140; log 4). -/
def State.afterDraw (s : State) : State :=
  match s.timerOk with
  | some _ => { s with timerOk := none }
  | none => { s with draws := s.draws + 1 }

/-- `DUTY <- v` with `emit SAMPLE(v)` (00_scope.md §5, 10_state.md R34). -/
def State.emitSample (s : State) (v : Sample) : State :=
  { s with duty := v, samples := s.samples ++ [v] }

/-- An ETICK word met while the timer is disarmed is recorded as "no event" (30_encoding.md R82). -/
def State.recordNoEvent (s : State) : State := { s with record := s.record ++ [.noEvent] }

/-- A clock cycle with `rst_n = 0`: every element takes its reset value and SAMPLES is emptied
(70_reset_and_hazards.md R230). What belongs to the environment and to the reader of the run stays (log 11). -/
def State.resetBlock (c : Params) (s : State) : State :=
  { State.resetWith c with
    record := s.record, timerOk := s.timerOk, stimulus := s.stimulus, draws := s.draws }

/-- The next arrival: the oldest known one, else a free one (20_memory.md R59; log 1). -/
def State.nextArrival (s : State) : Arrival :=
  match s.stimulus with
  | a :: _ => a
  | [] => Config.arrival s.draws

/-- The state in which the next arrival is performed: it has been taken from the stimulus. -/
def State.takeArrival (s : State) : State :=
  match s.stimulus with
  | _ :: rest => { s with stimulus := rest }
  | [] => { s with draws := s.draws + 1 }

end Sys2Proof.Machine
end

