-- ==== Sys2Proof/Machine/Operands.lean ====
section
/-! DEFINITION. What the operations read: the phase values sampled from the lines and the quadrature decoder's table
(40_encoder_capture.md R100 to R102), and the shaping tables with the rescale of a sample (20_memory.md R50,
41_envelope_generator.md R130 to R132). -/

namespace Sys2Proof.Machine

/-- A direction result (R102). -/
inductive Direction where
  | none
  | cw
  | ccw
deriving DecidableEq, Repr

/-- The effect of a result on a counter, as an integer (R105). -/
def Direction.delta : Direction → Int
  | .none => 0
  | .cw => 1
  | .ccw => -1

/-- `wrap32` of the counter with a result added (R105, R106). -/
def Direction.count (d : Direction) (cnt : Word) : Word :=
  match d with
  | .none => cnt
  | .cw => cnt + 1
  | .ccw => cnt - 1

/-- An entry `n` of the decoder table: next state n, result NONE (R100). -/
def quiet (n : DecState) : DecState × Direction := (n, .none)

/-- The rows of the decoder table, for p = 0, 1, 2, 3 in this order (R100; log 5). -/
def decoderRow : DecState → Vector (DecState × Direction) 4
  | .rStart => #v[quiet .rStart, quiet .rCwBegin, quiet .rCcwBegin, quiet .rStart]
  | .rCwFinal => #v[quiet .rCwNext, quiet .rStart, quiet .rCwFinal, (.rStart, .cw)]
  | .rCwBegin => #v[quiet .rCwNext, quiet .rCwBegin, quiet .rStart, quiet .rStart]
  | .rCwNext => #v[quiet .rCwNext, quiet .rCwBegin, quiet .rCwFinal, quiet .rStart]
  | .rCcwBegin => #v[quiet .rCcwNext, quiet .rStart, quiet .rCcwBegin, quiet .rStart]
  | .rCcwFinal => #v[quiet .rCcwNext, quiet .rCcwFinal, quiet .rStart, (.rStart, .ccw)]
  | .rCcwNext => #v[quiet .rCcwNext, quiet .rCcwFinal, quiet .rCcwBegin, quiet .rStart]

/-- `DECODER[s][p]` (R100). -/
def decoder (s : DecState) (p : Phase) : DecState × Direction := (decoderRow s)[p.toNat]

/-- The phase value `2·B + A` of the lines of encoder 0; the levels are not inverted (R101). -/
def phase0 (l : PhaseLines) : Phase := BitVec.ofBool l.enc0B ++ BitVec.ofBool l.enc0A

/-- The phase value of encoder 1 (R101). -/
def phase1 (l : PhaseLines) : Phase := BitVec.ofBool l.enc1B ++ BitVec.ofBool l.enc1A

/-- `ROM_A(i)` (R50). -/
def romA (c : Params) (i : BitVec 6) : Sample := c.attackTable[i.toNat]

/-- `ROM_S(i)`, i at most 15 (R50); past the table the value is free (log 8). -/
def romS (c : Params) (i : BitVec 6) : Sample :=
  if h : i.toNat < 16 then c.sustainTable[i.toNat] else Config.sustainBeyond i

/-- `scale(raw)`: signed integers, division rounded toward zero (R130). -/
def scale (c : Params) (raw : Sample) : Sample :=
  let d : Int := (raw.toNat : Int) - (c.mid.toNat : Int)
  let q : Int := d.tdiv (c.atten : Int)
  BitVec.ofInt 16 (q + (c.mid.toNat : Int))

/-- The sample of a tick, from the state before it (R132). -/
def tickSample (c : Params) (env : Env) (idx : BitVec 6) : Sample :=
  match env with
  | .idle => c.mid
  | .attack => scale c (romA c idx)
  | .sustain => scale c (romS c idx)
  | .release => scale c (romA c (63 - idx))

end Sys2Proof.Machine
end

