-- ==== Sys2Proof/Machine/Flags.lean ====
section
/-! DEFINITION. The predicates, status words and outputs computed from the state: suppression (10_state.md R39), the
status words (R35, R36), the output ports (R40, 30_encoding.md R70). -/

namespace Sys2Proof.Machine

/-- `suppressed(e)`: only the tuning encoder, while TX or LOCK is 1 (R39). -/
def State.suppressed (s : State) : Encoder → Bool
  | .tuning => s.tx || s.lock
  | .function => false

/-- The numeric encoding of a decoder state (R21). -/
def DecState.bits : DecState → BitVec 3
  | .rStart => 0
  | .rCwFinal => 1
  | .rCwBegin => 2
  | .rCwNext => 3
  | .rCcwBegin => 4
  | .rCcwFinal => 5
  | .rCcwNext => 6

/-- The numeric encoding of ENV (R26). -/
def Env.bits : Env → BitVec 2
  | .idle => 0
  | .attack => 1
  | .sustain => 2
  | .release => 3

/-- A field of a status word, its lowest bit at `pos` (R35, R36). -/
def fieldAt {n : Nat} (v : BitVec n) (pos : Nat) : Word := v.setWidth 32 <<< pos

/-- `STATUS0`: the fields at the positions of R35's table; bits 15:14 read 0. -/
def State.status0 (s : State) : Word :=
  fieldAt s.env.bits 0 ||| fieldAt s.idx 2 ||| fieldAt (BitVec.ofBool s.armed) 8 |||
    fieldAt (BitVec.ofBool s.pwmEn) 9 ||| fieldAt (BitVec.ofBool s.tone) 10 ||| fieldAt (BitVec.ofBool s.tx) 11 |||
    fieldAt (BitVec.ofBool s.lock) 12 ||| fieldAt (BitVec.ofBool s.ill) 13 ||| fieldAt s.duty 16

/-- `STATUS1`: DEC[0] at bit 0, DEC[1] at bit 4, every other bit 0 (R36). -/
def State.status1 (s : State) : Word := fieldAt s.dec0.bits 0 ||| fieldAt s.dec1.bits 4

/-- The status word RDSTAT selects (42_block_control.md R171). -/
def State.statusWord (s : State) : StatusWord → Word
  | .status0 => s.status0
  | .status1 => s.status1

/-- The output ports (R70, R40). -/
structure Outputs where
  timerArm : Bool
  respValid : Bool
  resp : Word
  pwmDuty : Sample
  pwmEnable : Bool
deriving DecidableEq, Repr

/-- The outputs as functions of the state (R40, R70). -/
def State.outputs (s : State) : Outputs where
  timerArm := s.armed
  respValid := s.respValid
  resp := s.resp
  pwmDuty := s.duty
  pwmEnable := s.pwmEn

end Sys2Proof.Machine
end

