-- ==== Sys2Proof/Machine/Control.lean ====
section
/-! DEFINITION. Block control: NOP, RDSTAT (42_block_control.md R170, R171). -/

namespace Sys2Proof.Machine

/-- `NOP` (R170). -/
def execNop (s : State) : Host.Outcome State Fault Refusal := .next (s.respond 0)

/-- `RDSTAT w` (R171). -/
def execRdstat (w : StatusWord) (s : State) : Host.Outcome State Fault Refusal :=
  .next (s.respond (s.statusWord w))

end Sys2Proof.Machine
end

