-- ==== Sys2Proof/Machine/Encoder.lean ====
section
/-! DEFINITION. The encoder half: POLL, DRAIN, SETTX, SETLOCK (40_encoder_capture.md R105, R107, R110, R111). -/

namespace Sys2Proof.Machine

/-- One encoder's part of a POLL: held and its count discarded while suppressed, else one decoder step (R105). -/
def State.pollEncoder (s : State) (e : Encoder) (p : Phase) : State :=
  if s.suppressed e then s.setCnt .tuning 0
  else
    let r := decoder (s.dec e) p
    (s.setDec e r.1).setCnt e (r.2.count (s.cnt e))

/-- `POLL p1, p0`: both encoders in one step; an event returns no response (R105, R75). -/
def execPoll (p1 p0 : Phase) (s : State) : Host.Outcome State Fault Refusal :=
  .next ((s.pollEncoder .tuning p0).pollEncoder .function p1)

/-- The read-and-reset of one counter (R107). -/
def State.drain (s : State) (e : Encoder) : State :=
  if s.suppressed e then (s.setCnt .tuning 0).respond 0
  else (s.setCnt e 0).respond (s.cnt e)

/-- `DRAIN e` (R107). -/
def execDrain (e : Encoder) (s : State) : Host.Outcome State Fault Refusal := .next (s.drain e)

/-- Discard the pending tuning counts when an input that suppresses them is set (R110, R111). -/
def State.discardIf (s : State) (v : Bool) : State := if v then s.setCnt .tuning 0 else s

/-- `SETTX v` (R110). -/
def execSettx (v : Bool) (s : State) : Host.Outcome State Fault Refusal :=
  .next (({ s with tx := v }.discardIf v).respond 0)

/-- `SETLOCK v` (R111). -/
def execSetlock (v : Bool) (s : State) : Host.Outcome State Fault Refusal :=
  .next (({ s with lock := v }.discardIf v).respond 0)

end Sys2Proof.Machine
end

