-- ==== Sys2Proof/Machine/Envelope.lean ====
section
/-! DEFINITION. The envelope half: ETICK, TONE, START, STOP (41_envelope_generator.md R133, R139, R140, R141). The
operations that read a parameter take the configuration as an argument (00_scope.md §4), and the meanings give it the
chip's. -/

namespace Sys2Proof.Machine

/-- ENV and IDX after a tick that samples the latch as `t` (R133). -/
def nextEnvelope (t : Bool) (env : Env) (idx : BitVec 6) : Env × BitVec 6 :=
  match env with
  | .idle => if t then (.attack, 0) else (.idle, idx)
  | .attack => if idx = 63 then (.sustain, 0) else (.attack, idx + 1)
  | .sustain => if idx = 15 then (if t then .sustain else .release, 0) else (.sustain, idx + 1)
  | .release => if idx = 63 then (.idle, 0) else (.release, idx + 1)

/-- One tick of the armed timer (R133). -/
def State.tick (c : Params) (s : State) : State :=
  let n := nextEnvelope s.tone s.env s.idx
  { s with env := n.1, idx := n.2 }.emitSample (tickSample c s.env s.idx)

/-- ETICK occurs only while ARMED = 1; its word met while disarmed is skipped and recorded (R133, R82; log 9). -/
def State.etick (c : Params) (s : State) : State :=
  if s.armed then s.tick c else s.recordNoEvent

/-- `ETICK` (R133). -/
def execEtick (s : State) : Host.Outcome State Fault Refusal := .next (s.etick Config.params)

/-- `TONE v` (R139). -/
def execTone (v : Bool) (s : State) : Host.Outcome State Fault Refusal :=
  .next ({ s with tone := v }.respond 0)

/-- START from the disarmed state, the platform's answer drawn (R140, R201). -/
def State.arm (c : Params) (s : State) : State :=
  if s.timerAnswer then ({ s.afterDraw with armed := true, pwmEn := true, duty := c.mid }).respond 1
  else s.afterDraw.timerUnavailable

/-- START: no effect and no draw while armed (R140). -/
def State.start (c : Params) (s : State) : State :=
  if s.armed then s.respond 1 else s.arm c

/-- `START` (R140). -/
def execStart (s : State) : Host.Outcome State Fault Refusal := .next (s.start Config.params)

/-- STOP: disarm, mid-rail, disable, envelope back to IDLE (R141). -/
def State.stop (c : Params) (s : State) : State :=
  { s with armed := false, duty := c.mid, pwmEn := false, env := .idle, idx := 0 }.respond 0

/-- `STOP` (R141). -/
def execStop (s : State) : Host.Outcome State Fault Refusal := .next (s.stop Config.params)

end Sys2Proof.Machine
end

