-- ==== Sys2Proof/Machine/Dispatch.lean ====
section
/-! DEFINITION. One arm per operation of the opcode map (30_encoding.md R73). -/

namespace Sys2Proof.Machine

def exec (i : Instr) (s : State) : Host.Outcome State Fault Refusal :=
  match i with
  | .nop => Sys2Proof.Machine.execNop s
  | .drain e => Sys2Proof.Machine.execDrain e s
  | .tone v => Sys2Proof.Machine.execTone v s
  | .start => Sys2Proof.Machine.execStart s
  | .stop => Sys2Proof.Machine.execStop s
  | .settx v => Sys2Proof.Machine.execSettx v s
  | .setlock v => Sys2Proof.Machine.execSetlock v s
  | .rdstat w => Sys2Proof.Machine.execRdstat w s
  | .poll p1 p0 => Sys2Proof.Machine.execPoll p1 p0 s
  | .etick => Sys2Proof.Machine.execEtick s

end Sys2Proof.Machine
end

