-- ==== Sys2Proof/Machine/Agents.lean ====
section
/-! DEFINITION. The agents at the block's inputs: what each arrival does (00_scope.md R6, 30_encoding.md R70, R75, R82,
60_exceptions.md R200, R208, R209, 70_reset_and_hazards.md R230), and the order of what arrives in one clock cycle
(20_memory.md R60). -/

namespace Sys2Proof.Machine

/-- A word on the host command port: the command it encodes, or IllegalCommand (R77, R79, R200). -/
def performCommand (w : Byte) (s : State) : Host.Outcome State Fault Refusal :=
  match decodeCmd w with
  | .ok i => exec i s
  | .error _ => .next s.illegalCommand

/-- A word of a stimulus trace (R78, R79, R82). -/
def performTraceWord (w : Byte) (s : State) : Host.Outcome State Fault Refusal :=
  match decodeTrace w with
  | .operation i => exec i s
  | .illegal _ => .next s.illegalCommand
  | .notAnEvent => .refused (.notATraceWord w)

/-- One arrival as one atomic step (R55). A pulse of the timer port is an ETICK only while ARMED = 1 (R70, R208). -/
def perform (a : Arrival) (s : State) : Host.Outcome State Fault Refusal :=
  match a with
  | .command w ok => performCommand w { s with timerOk := ok }
  | .pollStrobe l => exec (.poll (phase1 l) (phase0 l)) s
  | .timerTick => if s.armed then exec .etick s else .next s
  | .traceWord w ok => performTraceWord w { s with timerOk := ok }
  | .resetCycle => .next (s.resetBlock Config.params)

/-- The input ports in one clock cycle (R70). -/
structure PortCycle where
  rstN : Bool
  lines : PhaseLines
  pollStrobe : Bool
  timerTick : Bool
  timerOk : Bool
  cmdValid : Bool
  cmd : Byte
deriving DecidableEq, Repr

/-- What one clock cycle amounts to: reset performs nothing else (R230), otherwise the host's command comes first, then
POLL, then ETICK (R60). -/
def PortCycle.arrivals (p : PortCycle) : List Arrival :=
  if p.rstN then
    (if p.cmdValid then [.command p.cmd (some p.timerOk)] else []) ++
      (if p.pollStrobe then [.pollStrobe p.lines] else []) ++
      (if p.timerTick then [.timerTick] else [])
  else [.resetCycle]

end Sys2Proof.Machine
end

