-- ==== Sys2Proof/Machine/Step.lean ====
section
/-! DEFINITION. One step: the next arrival is taken and performed (20_memory.md R55, R59; log 1, log 18). -/

namespace Sys2Proof.Machine

/-- One step of the machine: the oldest known arrival, or a free one where none is known. -/
def step (s : State) : Host.Outcome State Fault Refusal := perform s.nextArrival s.takeArrival

/-- `s` with the word `w` placed as the next word of a stimulus trace, its draw left open (R82; log 18). -/
def State.withFetchWord (s : State) (_nbits w : Nat) : State :=
  { s with stimulus := .traceWord (BitVec.ofNat 8 w) none :: s.stimulus }

end Sys2Proof.Machine
end

