-- ==== Sys2Proof/Machine/Asm.lean ====
section
/-! DEFINITION. The assembler syntax of one line and the pseudo-instructions (30_encoding.md R80, R81; log 15). -/

namespace Sys2Proof.Machine

/-- The pseudo-instructions (R81). -/
inductive Pseudo where
  | tunedelta
  | funcdelta
  | keydown
  | keyup
  | transmit
  | receive
  | tunelock
  | tuneunlock
  | status
  | decstat
  | idlepoll
deriving DecidableEq, Repr

/-- The expansion of a pseudo-instruction (R81). -/
def Pseudo.expand : Pseudo → Instr
  | .tunedelta => .drain .tuning
  | .funcdelta => .drain .function
  | .keydown => .tone true
  | .keyup => .tone false
  | .transmit => .settx true
  | .receive => .settx false
  | .tunelock => .setlock true
  | .tuneunlock => .setlock false
  | .status => .rdstat .status0
  | .decstat => .rdstat .status1
  | .idlepoll => .poll 3 3

/-- The spelling of a pseudo-instruction (R81). -/
def Pseudo.name : Pseudo → List Char
  | .tunedelta => ['T', 'U', 'N', 'E', 'D', 'E', 'L', 'T', 'A']
  | .funcdelta => ['F', 'U', 'N', 'C', 'D', 'E', 'L', 'T', 'A']
  | .keydown => ['K', 'E', 'Y', 'D', 'O', 'W', 'N']
  | .keyup => ['K', 'E', 'Y', 'U', 'P']
  | .transmit => ['T', 'R', 'A', 'N', 'S', 'M', 'I', 'T']
  | .receive => ['R', 'E', 'C', 'E', 'I', 'V', 'E']
  | .tunelock => ['T', 'U', 'N', 'E', 'L', 'O', 'C', 'K']
  | .tuneunlock => ['T', 'U', 'N', 'E', 'U', 'N', 'L', 'O', 'C', 'K']
  | .status => ['S', 'T', 'A', 'T', 'U', 'S']
  | .decstat => ['D', 'E', 'C', 'S', 'T', 'A', 'T']
  | .idlepoll => ['I', 'D', 'L', 'E', 'P', 'O', 'L', 'L']

/-- All pseudo-instructions, in the order of R81. -/
def Pseudo.all : List Pseudo :=
  [.tunedelta, .funcdelta, .keydown, .keyup, .transmit, .receive, .tunelock, .tuneunlock, .status, .decstat, .idlepoll]

/-- The mnemonic of an operation (R73). -/
def mnemonicText : Instr → List Char
  | .nop => ['N', 'O', 'P']
  | .drain _ => ['D', 'R', 'A', 'I', 'N']
  | .tone _ => ['T', 'O', 'N', 'E']
  | .start => ['S', 'T', 'A', 'R', 'T']
  | .stop => ['S', 'T', 'O', 'P']
  | .settx _ => ['S', 'E', 'T', 'T', 'X']
  | .setlock _ => ['S', 'E', 'T', 'L', 'O', 'C', 'K']
  | .rdstat _ => ['R', 'D', 'S', 'T', 'A', 'T']
  | .poll _ _ => ['P', 'O', 'L', 'L']
  | .etick => ['E', 'T', 'I', 'C', 'K']

/-- A one-bit operand in decimal (R80). -/
def bitText (v : Bool) : List Char := if v then ['1'] else ['0']

/-- A phase value in decimal (R80). -/
def phaseText (p : Phase) : List Char :=
  match p.toNat with
  | 0 => ['0']
  | 1 => ['1']
  | 2 => ['2']
  | _ => ['3']

/-- The text of an operation: mnemonic, a space, the operand; POLL has two, a comma between (R80). -/
def instrText (i : Instr) : List Char :=
  match i with
  | .nop | .start | .stop | .etick => mnemonicText i
  | .drain e => mnemonicText i ++ [' '] ++ bitText e.bit
  | .tone v | .settx v | .setlock v => mnemonicText i ++ [' '] ++ bitText v
  | .rdstat w => mnemonicText i ++ [' '] ++ bitText w.bit
  | .poll p1 p0 => mnemonicText i ++ [' '] ++ phaseText p1 ++ [',', ' '] ++ phaseText p0

/-- A line's text without its comment (R80). -/
def stripComment (line : List Char) : List Char := line.takeWhile (fun ch => ch != ';')

/-- Close the piece read so far, kept in reverse. -/
def closePiece (acc : List Char) (pieces : List (List Char)) : List (List Char) :=
  if acc.isEmpty then pieces else acc.reverse :: pieces

/-- The pieces of a line: spaces separate them, and a comma is a piece of its own. -/
def pieces : List Char → List Char → List (List Char)
  | acc, [] => closePiece acc []
  | acc, ' ' :: rest => closePiece acc (pieces [] rest)
  | acc, ',' :: rest => closePiece acc ([','] :: pieces [] rest)
  | acc, ch :: rest => pieces (ch :: acc) rest

/-- A one-bit operand (R80). -/
def readBit : List Char → Option Bool
  | ['0'] => some false
  | ['1'] => some true
  | _ => none

/-- A binary digit. -/
def readDigit : Char → Option Bool
  | '0' => some false
  | '1' => some true
  | _ => none

/-- A phase value: decimal 0 to 3, or two binary digits `BA` with the suffix `b` (R80). -/
def readPhase : List Char → Option Phase
  | ['0'] => some 0
  | ['1'] => some 1
  | ['2'] => some 2
  | ['3'] => some 3
  | [hi, lo, 'b'] =>
    match readDigit hi, readDigit lo with
    | some b, some a => some (BitVec.ofBool b ++ BitVec.ofBool a)
    | _, _ => none
  | _ => none

/-- The operations without operand, and with a one-bit operand `v`, that a mnemonic can stand for. -/
def plainOps : List Instr := [.nop, .start, .stop, .etick]

/-- The operations with a one-bit operand `v` (R73, R76). -/
def bitOps (v : Bool) : List Instr :=
  [.drain (Encoder.ofBit v), .tone v, .settx v, .setlock v, .rdstat (StatusWord.ofBit v)]

/-- The operation a line's pieces name: a pseudo-instruction, or a mnemonic with the operands of its format. -/
def readOperation : List (List Char) → Option Instr
  | [m] =>
    match Pseudo.all.find? (fun q => q.name == m) with
    | some q => some q.expand
    | none => plainOps.find? (fun i => mnemonicText i == m)
  | [m, v] =>
    match readBit v with
    | some b => (bitOps b).find? (fun i => mnemonicText i == m)
    | none => none
  | [m, p1, [','], p0] =>
    if m == mnemonicText (.poll 0 0) then
      match readPhase p1, readPhase p0 with
      | some b, some a => some (.poll b a)
      | _, _ => none
    else none
  | _ => none

/-- What a line of a program is. -/
inductive Line where
  /-- Nothing, or a comment only. -/
  | blank
  /-- An operation, assembled to its word (R80). -/
  | word (w : Byte)
  /-- No operation of the syntax. -/
  | rejected
deriving DecidableEq, Repr

/-- Assemble one line (R80). -/
def assembleLine (line : List Char) : Line :=
  match pieces [] (stripComment line) with
  | [] => .blank
  | ps =>
    match readOperation ps with
    | some i => .word (encode i)
    | none => .rejected

end Sys2Proof.Machine
end

