-- ==== Sys2Proof/Safety.lean ====
section
/-! DEFINITION. The terms in which claims about the machine are stated: the invariants INV2 to INV6 (10_state.md R38),
runs and reachable states (20_memory.md R59), the accounting of R108, the keyed runs and neighbouring samples of R135 and
R136, and weak fairness (60_exceptions.md R212, R214). No step reads any of it. -/

namespace Sys2Proof.Machine

/-- The two states agree on everything R20 calls the state of the block, and on SAMPLES (R20, R34). -/
def State.SameBlock (s t : State) : Prop :=
  t.dec0 = s.dec0 ∧ t.dec1 = s.dec1 ∧ t.cnt0 = s.cnt0 ∧ t.cnt1 = s.cnt1 ∧ t.tx = s.tx ∧ t.lock = s.lock ∧
    t.tone = s.tone ∧ t.env = s.env ∧ t.idx = s.idx ∧ t.armed = s.armed ∧ t.pwmEn = s.pwmEn ∧ t.duty = s.duty ∧
    t.ill = s.ill ∧ t.samples = s.samples

/-- INV2: the index is within the bounds of the state's table, and 0 in IDLE (R38). -/
def State.IndexInBounds (s : State) : Prop :=
  match s.env with
  | .idle => s.idx = 0
  | .attack | .release => s.idx.toNat ≤ 63
  | .sustain => s.idx.toNat ≤ 15

/-- INV3: `ARMED = PWM_EN` (R38). -/
def State.ArmedIffEnabled (s : State) : Prop := s.armed = s.pwmEn

/-- INV4: disarmed, the envelope half is at rest (R38). -/
def State.DisarmedAtRest (s : State) : Prop :=
  s.armed = false → s.env = .idle ∧ s.idx = 0 ∧ s.duty = Config.params.mid

/-- INV5: while suppressed, the tuning count is 0 (R38). -/
def State.SuppressedCountZero (s : State) : Prop := s.tx = true ∨ s.lock = true → s.cnt0 = 0

/-- INV6: DUTY is within the wrap count; the configuration satisfies WF by its type (R38, R14). -/
def State.DutyInWrap (s : State) : Prop := s.duty ≤ Config.params.pwmWrap

/-- The invariants of R38. INV1 (no decoder state 7) holds of every state by the type DecState. -/
structure State.Inv (s : State) : Prop where
  indexInBounds : s.IndexInBounds
  armedIffEnabled : s.ArmedIffEnabled
  disarmedAtRest : s.DisarmedAtRest
  suppressedCountZero : s.SuppressedCountZero
  dutyInWrap : s.DutyInWrap

/-- The states some run from reset reaches: any agent may act at any point, and the environment may fix the arrivals
and the timer's answer as it likes (R38, R59). -/
inductive Reachable : State → Prop where
  | reset : Reachable State.reset
  | performed {s t : State} (a : Arrival) (h : Reachable s) (hp : perform a s = .next t) : Reachable t
  | environment {s : State} (l : List Arrival) (ok : Option Bool) (n : Nat) (h : Reachable s) :
      Reachable { s with stimulus := l, timerOk := ok, draws := n }

/-- The agents' own streams and their merges that keep each stream's order (R59). -/
inductive Interleaving : List Arrival → List Arrival → List Arrival → List Arrival → Prop where
  | done : Interleaving [] [] [] []
  | host {h p t m : List Arrival} (a : Arrival) (r : Interleaving h p t m) : Interleaving (a :: h) p t (a :: m)
  | strobe {h p t m : List Arrival} (a : Arrival) (r : Interleaving h p t m) : Interleaving h (a :: p) t (a :: m)
  | timer {h p t m : List Arrival} (a : Arrival) (r : Interleaving h p t m) : Interleaving h p (a :: t) (a :: m)

/-- One performed arrival of a run: what arrived, the state before and the state after. -/
structure Moment where
  arrival : Arrival
  before : State
  after : State

/-- The moments of a run over these arrivals, up to the first the trace reader refuses. -/
def trail : List Arrival → State → List Moment
  | [], _ => []
  | a :: rest, s =>
    match perform a s with
    | .next t => ⟨a, s, t⟩ :: trail rest t
    | .fault _ => []
    | .refused _ => []

/-- The state a run over these arrivals ends in. -/
def runAll : List Arrival → State → State
  | [], s => s
  | a :: rest, s =>
    match perform a s with
    | .next t => runAll rest t
    | .fault _ => s
    | .refused _ => s

/-- The operation an arrival performs, if it is one. -/
def operationOf : Arrival → Option Instr
  | .command w _ =>
    match decodeCmd w with
    | .ok i => some i
    | .error _ => none
  | .pollStrobe l => some (.poll (phase1 l) (phase0 l))
  | .timerTick => some .etick
  | .traceWord w _ =>
    match decodeTrace w with
    | .operation i => some i
    | .illegal _ => none
    | .notAnEvent => none
  | .resetCycle => none

/-- The phase value a POLL gives an encoder (R101). -/
def pollPhase (p1 p0 : Phase) : Encoder → Phase
  | .tuning => p0
  | .function => p1

/-- The result of encoder e's decoder in a moment: 0 unless it is a POLL in which e is not suppressed (R108, `P_e`). -/
def Moment.produced (e : Encoder) (m : Moment) : Int :=
  match operationOf m.arrival with
  | some (.poll p1 p0) =>
    if m.before.suppressed e then 0 else (decoder (m.before.dec e) (pollPhase p1 p0 e)).2.delta
  | _ => 0

/-- What a `DRAIN e` returned in a moment, read as s32 (R108, `D_e`). -/
def Moment.drained (e : Encoder) (m : Moment) : Int :=
  match operationOf m.arrival with
  | some (.drain e') => if e' = e then m.after.resp.toInt else 0
  | _ => 0

/-- The count of encoder e discarded in a moment: by SETTX 1, SETLOCK 1, a suppressed POLL or a suppressed DRAIN
(R108, `X_e`). -/
def Moment.discarded (e : Encoder) (m : Moment) : Int :=
  match operationOf m.arrival, e with
  | some (.settx true), .tuning => m.before.cnt0.toInt
  | some (.setlock true), .tuning => m.before.cnt0.toInt
  | some (.poll _ _), .tuning => if m.before.suppressed .tuning then m.before.cnt0.toInt else 0
  | some (.drain .tuning), .tuning => if m.before.suppressed .tuning then m.before.cnt0.toInt else 0
  | _, _ => 0

/-- The sum of a quantity over a run. -/
def total (f : Moment → Int) (l : List Moment) : Int := (l.map f).sum

/-- No counter of encoder e wraps in a moment (R106, R108). -/
def Moment.noWrap (e : Encoder) (m : Moment) : Prop :=
  -2 ^ 31 ≤ (m.before.cnt e).toInt + m.produced e ∧ (m.before.cnt e).toInt + m.produced e < 2 ^ 31

/-- TX and LOCK are 0 before and after a moment (R108). -/
def Moment.quiet (m : Moment) : Prop :=
  m.before.tx = false ∧ m.before.lock = false ∧ m.after.tx = false ∧ m.after.lock = false

/-- Feed phase values to one decoder and add up its results (R102, R103). -/
def decodeRun : DecState → List Phase → DecState × Int
  | d, [] => (d, 0)
  | d, p :: rest =>
    let r := decoder d p
    let q := decodeRun r.1 rest
    (q.1, r.2.delta + q.2)

/-- The phase values differ in exactly one bit: neighbours in Gray order (R103). -/
def grayNeighbours (p q : Phase) : Bool := p ^^^ q == 1 || p ^^^ q == 2

/-- n ticks, the host setting the latch to `f k` by TONE before the k-th (k = 0, 1, …) (R133, R139). -/
def keyedRun (f : Nat → Bool) : Nat → State → State
  | 0, s => s
  | n + 1, s =>
    let t := keyedRun f n s
    ({ t with tone := f n }.respond 0).etick Config.params

/-- The moments of a run that are ticks (R133). -/
def ticksOf (l : List Moment) : List Moment := l.filter fun m => operationOf m.arrival == some .etick

/-- The latch as the k-th of these ticks finds it (R134). -/
def latchAt (ticks : List Moment) (k : Nat) : Bool :=
  match ticks[k]? with
  | some m => m.before.tone
  | none => false

/-- The scaled attack table `A'(0)` to `A'(63)` (R135, R136). -/
def attackSamples (c : Params) : List Sample := c.attackTable.toList.map (scale c)

/-- The scaled sustain table `S'(0)` to `S'(15)` (R135, R136). -/
def sustainSamples (c : Params) : List Sample := c.sustainTable.toList.map (scale c)

/-- The samples of a keyed element with K sustain cycles (R135). -/
def keyedSamples (c : Params) (k : Nat) : List Sample :=
  attackSamples c ++ (List.replicate k (sustainSamples c)).flatten ++ (attackSamples c).reverse

/-- `A'(i)` (R136). -/
def attackSample (c : Params) (i : Fin 64) : Sample := scale c c.attackTable[i]

/-- `S'(j)` (R136). -/
def sustainSample (c : Params) (j : Fin 16) : Sample := scale c c.sustainTable[j]

/-- The pairs of consecutive samples a walk of the tables can give (R136). -/
inductive Neighbours (c : Params) : Sample → Sample → Prop where
  | rest : Neighbours c c.mid c.mid
  | enter : Neighbours c c.mid (attackSample c 0)
  | rise (i : Fin 64) (j : Fin 64) (h : j.val = i.val + 1) : Neighbours c (attackSample c i) (attackSample c j)
  | toSustain : Neighbours c (attackSample c 63) (sustainSample c 0)
  | hold (i : Fin 16) (j : Fin 16) (h : j.val = i.val + 1) : Neighbours c (sustainSample c i) (sustainSample c j)
  | again : Neighbours c (sustainSample c 15) (sustainSample c 0)
  | toRelease : Neighbours c (sustainSample c 15) (attackSample c 63)
  | fall (i : Fin 64) (j : Fin 64) (h : j.val = i.val + 1) : Neighbours c (attackSample c j) (attackSample c i)
  | leave : Neighbours c (attackSample c 0) c.mid

/-- DUTY is the sample the walk wrote last: which one, from ENV and IDX (R132, R133). At rest it is MID or, after a
release, `A'(0)`. -/
def State.DutyOnWalk (c : Params) (s : State) : Prop :=
  match s.env with
  | .idle => s.idx = 0 ∧ (s.duty = c.mid ∨ s.duty = attackSample c 0)
  | .attack =>
    (s.idx = 0 ∧ s.duty = c.mid) ∨ ∃ i : Fin 64, s.idx.toNat = i.val + 1 ∧ s.duty = attackSample c i
  | .sustain =>
    (s.idx = 0 ∧ (s.duty = attackSample c 63 ∨ s.duty = sustainSample c 15)) ∨
      ∃ j : Fin 16, s.idx.toNat = j.val + 1 ∧ j.val < 15 ∧ s.duty = sustainSample c j
  | .release =>
    (s.idx = 0 ∧ s.duty = sustainSample c 15) ∨
      ∃ i : Fin 64, s.idx.toNat + i.val = 64 ∧ s.duty = attackSample c i

/-- The absolute difference of two samples. -/
def gap (x y : Sample) : Nat := ((x.toNat : Int) - (y.toNat : Int)).natAbs

/-- `m` bounds every step inside the scaled tables (R136). -/
def InTableStepsAtMost (c : Params) (m : Nat) : Prop :=
  (∀ i j : Fin 64, j.val = i.val + 1 → gap (attackSample c i) (attackSample c j) ≤ m) ∧
    ∀ i j : Fin 16, j.val = i.val + 1 → gap (sustainSample c i) (sustainSample c j) ≤ m

/-- `SMOOTH` against the bound `m`: every boundary difference is at most `m` too (R136). -/
def Smooth (c : Params) (m : Nat) : Prop :=
  gap c.mid (attackSample c 0) ≤ m ∧ gap (attackSample c 63) (sustainSample c 0) ≤ m ∧
    gap (sustainSample c 15) (sustainSample c 0) ≤ m ∧ gap (sustainSample c 15) (attackSample c 63) ≤ m

/-- The latch is sampled on this state's tick: the IDLE tick and the SUSTAIN tick with IDX = 15 (R134). -/
def State.SamplesLatch (s : State) : Prop := s.env = .idle ∨ (s.env = .sustain ∧ s.idx = 15)

/-- Arrivals that are neither a STOP nor a cycle of reset. -/
def KeepsWalking (a : Arrival) : Prop := a ≠ .resetCycle ∧ operationOf a ≠ some .stop

/-- An infinite run: what arrives at each point, and the states it goes through (R59). -/
structure Run where
  arrival : Nat → Arrival
  state : Nat → State
  starts : state 0 = State.reset
  performs : ∀ n, perform (arrival n) (state n) = .next (state (n + 1))

/-- Weak fairness of the poll strobe: POLL occurs infinitely often (R214; log 12). -/
def Run.PollFair (r : Run) : Prop :=
  ∀ n, ∃ m, n ≤ m ∧ ∃ p1 p0, operationOf (r.arrival m) = some (.poll p1 p0)

/-- Weak fairness of the timer: while ARMED stays 1, ETICK occurs infinitely often (R212; log 12). -/
def Run.TimerFair (r : Run) : Prop :=
  ∀ n, (∀ m, n ≤ m → (r.state m).armed = true) →
    ∀ k, ∃ m, k ≤ m ∧ operationOf (r.arrival m) = some .etick

end Sys2Proof.Machine
end

