-- ==== Sys2Proof/Certificates/Slice0/Obligations.lean ====
section
/-! DEFINITION. The statements for the provers. A statement whose conclusion is `exec i s = .next t` with t written
as an update of s says three things at once: that the operation completes, its result, and its frame (every field not
named in the update is unchanged). In it, `respValid` and `resp` are the response R70 and R74 speak of, and `record` the
recording of responses and skipped events of R82; they are no state of the block (R20). That an event leaves the port as
it was is the model's choice (log 3), and so is the cause that stands beside a response in the record (log 17). The block has no addressable
memory (20_memory.md R51), so no frame speaks of any. Claims over the configuration hold for every one that meets WF,
since `Config.params` is opaque and its type carries WF (log 7). -/

open Sys2Proof Sys2Proof.Machine

/-! ## Reset -/

/-- R231: the reset value of every element, and the two status words after reset. -/
def Obligations.ResetValues : Prop :=
  State.reset.dec0 = .rStart ∧ State.reset.dec1 = .rStart ∧ State.reset.cnt0 = 0 ∧ State.reset.cnt1 = 0 ∧
  State.reset.tx = false ∧ State.reset.lock = false ∧ State.reset.tone = false ∧ State.reset.env = .idle ∧
  State.reset.idx = 0 ∧ State.reset.armed = false ∧ State.reset.pwmEn = false ∧
  State.reset.duty = Config.params.mid ∧ State.reset.ill = false ∧ State.reset.samples = [] ∧
  State.reset.status0 = Config.params.mid.setWidth 32 <<< 16 ∧ State.reset.status1 = 0

/-- R230: in every state, a cycle of reset takes every element to its reset value, empties SAMPLES, disarms the timer and
disables the channel; and a clock cycle with rst_n low performs nothing else, whatever arrives in it. -/
def Obligations.ResetCycleResets : Prop :=
  (∀ s, ∃ t, perform .resetCycle s = .next t ∧ State.SameBlock State.reset t ∧ t.samples = [] ∧
    t.outputs.timerArm = false ∧ t.outputs.pwmEnable = false) ∧
  (∀ p : PortCycle, p.rstN = false → p.arrivals = [.resetCycle])

/-! ## Invariants -/

/-- The reset state meets INV2 to INV6 (R38). -/
def Obligations.ResetMeetsInvariants : Prop := State.reset.Inv

/-- Every step from a state that meets INV2 to INV6 leads to one that does, whatever arrives (R38). -/
def Obligations.StepKeepsInvariants : Prop := ∀ s t : State, s.Inv → step s = .next t → t.Inv

/-- R38: the invariants hold in every state a run of the operations reaches from reset; INV1 is said of the numbers
the decoder states are read as. -/
def Obligations.ReachableStatesMeetInvariants : Prop :=
  ∀ s, Reachable s → s.Inv ∧ ∀ e, (s.dec e).bits.toNat ≤ 6

/-! ## Encoding -/

/-- Decoding the word of an operation gives the operation back, every operand at every value: in a trace, and on the
command port for the host's commands (R79). -/
def Obligations.DecodeOfEncode : Prop :=
  ∀ i, decodeTrace (encode i) = .operation i ∧ (i.isCommand = true → decodeCmd (encode i) = .ok i)

/-- Each word has one meaning: a word read as an operation is that operation's word; on the command port only a
host command is read (R79). -/
def Obligations.EncodeOfDecode : Prop :=
  (∀ w i, decodeTrace w = .operation i → encode i = w) ∧
  ∀ w i, decodeCmd w = .ok i → encode i = w ∧ i.isCommand = true

/-- R77: which command words are illegal and by which clause, that every other word is exactly one command, and that an
illegal word sets ILL, answers 0 and changes nothing else. -/
def Obligations.IllegalWordsByClause : Prop :=
  (∀ w : Byte,
    (decodeCmd w = .error .reservedOp ↔ 0xA ≤ (opField w).toNat) ∧
    (decodeCmd w = .error .eventOnCommandPort ↔ opField w = 0x8 ∨ opField w = 0x9) ∧
    (decodeCmd w = .error .argNotZero ↔
      (opField w = 0x0 ∨ opField w = 0x3 ∨ opField w = 0x4) ∧ argField w ≠ 0) ∧
    (decodeCmd w = .error .argHighBitsNotZero ↔
      (opField w = 0x1 ∨ opField w = 0x2 ∨ opField w = 0x5 ∨ opField w = 0x6 ∨ opField w = 0x7) ∧
        (argField w).extractLsb 3 1 ≠ 0) ∧
    ((∃ i, decodeCmd w = .ok i) ↔
      w ∈ ([0x00, 0x10, 0x11, 0x20, 0x21, 0x30, 0x40, 0x50, 0x51, 0x60, 0x61, 0x70, 0x71] : List Byte))) ∧
  ∀ (w : Byte) (r : IllegalWord) (ok : Option Bool) (s : State), decodeCmd w = .error r →
    ∃ t, perform (.command w ok) s = .next t ∧ State.SameBlock { s with ill := true } t ∧ t.resp = 0

/-- R78: the trace reader refuses exactly 0x91 to 0x9F and op 0xA to 0xF, and the step then ends in the refusal that
names the word; every word 0x80 to 0x8F is a POLL. -/
def Obligations.TraceReaderRefusals : Prop :=
  (∀ (w : Byte) (ok : Option Bool) (s : State),
    perform (.traceWord w ok) s = .refused (.notATraceWord w) ↔ 0x91 ≤ w.toNat) ∧
  ∀ w : Byte, 0x80 ≤ w.toNat → w.toNat ≤ 0x8F → ∃ p1 p0, decodeTrace w = .operation (.poll p1 p0)

/-- Words written out from the opcode map decode to their operations (R73, R76). -/
def Obligations.WrittenWordsDecode : Prop :=
  decodeTrace 0b00000000 = .operation .nop ∧ decodeTrace 0b00010001 = .operation (.drain .function) ∧
  decodeTrace 0b00100001 = .operation (.tone true) ∧ decodeTrace 0b00110000 = .operation .start ∧
  decodeTrace 0b01000000 = .operation .stop ∧ decodeTrace 0b01010001 = .operation (.settx true) ∧
  decodeTrace 0b01100000 = .operation (.setlock false) ∧ decodeTrace 0b01110001 = .operation (.rdstat .status1) ∧
  decodeTrace 0b10001101 = .operation (.poll 3 1) ∧ decodeTrace 0b10010000 = .operation .etick

/-- R81: the expansion and the word of every pseudo-instruction, each assembled from its name. -/
def Obligations.PseudoExpansions : Prop :=
  Pseudo.all.map (fun q => assembleLine q.name) =
    [.word 0x10, .word 0x11, .word 0x21, .word 0x20, .word 0x51, .word 0x50, .word 0x61, .word 0x60, .word 0x70,
      .word 0x71, .word 0x8F] ∧
  Pseudo.all.map Pseudo.expand =
    [.drain .tuning, .drain .function, .tone true, .tone false, .settx true, .settx false, .setlock true,
      .setlock false, .rdstat .status0, .rdstat .status1, .poll 3 3]

/-- R80: the text of every operation assembles to its word, with or without a comment after it, and a POLL may have
its phase values in binary. -/
def Obligations.AssembledTextIsEncoded : Prop :=
  (∀ (i : Instr) (comment : List Char),
    assembleLine (instrText i) = .word (encode i) ∧
    assembleLine (instrText i ++ [' ', ';'] ++ comment) = .word (encode i)) ∧
  ∀ b1 a1 b0 a0 : Bool,
    assembleLine (['P', 'O', 'L', 'L', ' '] ++ bitText b1 ++ bitText a1 ++ ['b', ',', ' '] ++
        bitText b0 ++ bitText a0 ++ ['b']) =
      .word (encode (.poll (BitVec.ofBool b1 ++ BitVec.ofBool a1) (BitVec.ofBool b0 ++ BitVec.ofBool a0)))

/-! ## The step and the agents -/

/-- A step performs the oldest known arrival, taken from the stimulus, whichever it is; where it is a command word or a trace word that
decodes to an operation, the step is exec of that operation, with the level of timer_ok that came with the word. With
nothing known, a free arrival is performed (log 1). -/
def Obligations.StepRunsDecodedOperation : Prop :=
  ∀ (s : State) (rest : List Arrival),
    (∀ a, s.stimulus = a :: rest → step s = perform a { s with stimulus := rest }) ∧
    (∀ w ok i, s.stimulus = .traceWord w ok :: rest → decodeTrace w = .operation i →
      step s = exec i { s with stimulus := rest, timerOk := ok }) ∧
    (∀ w ok i, s.stimulus = .command w ok :: rest → decodeCmd w = .ok i →
      step s = exec i { s with stimulus := rest, timerOk := ok }) ∧
    (∀ l, s.stimulus = .pollStrobe l :: rest →
      step s = exec (.poll (phase1 l) (phase0 l)) { s with stimulus := rest }) ∧
    (s.stimulus = .timerTick :: rest → s.armed = true → step s = exec .etick { s with stimulus := rest }) ∧
    (s.stimulus = [] → step s = perform (Config.arrival s.draws) { s with draws := s.draws + 1 })

/-- R101: one POLL samples both encoders' lines as `2·B + A`, not inverted. -/
def Obligations.PollSamplesLines : Prop :=
  ∀ (l : PhaseLines) (s : State),
    perform (.pollStrobe l) s = exec (.poll (phase1 l) (phase0 l)) s ∧
    (phase0 l).toNat = 2 * l.enc0B.toNat + l.enc0A.toNat ∧
    (phase1 l).toNat = 2 * l.enc1B.toNat + l.enc1A.toNat

/-- Every operation completes in one step, in every state (R62, R202). A command puts its response on the port and in the
record (R74, R82), and an event returns no response (R75): that the port then keeps what it held is the model's choice
(log 3), since no rule says what it holds after an event. -/
def Obligations.EveryOperationCompletes : Prop :=
  ∀ i s, ∃ t, exec i s = .next t ∧
    (i.isCommand = true → t.respValid = true ∧ ∃ c, t.record = s.record ++ [.response t.resp c]) ∧
    (i.isCommand = false → t.respValid = s.respValid ∧ t.resp = s.resp)

/-- R74: the response of each command: the drained count, START's success, the status word, and 0 for the others and
for an illegal word. -/
def Obligations.ResponsePerCommand : Prop :=
  ∀ i s t, exec i s = .next t →
    (∀ e, i = .drain e → t.resp = if s.suppressed e then 0 else s.cnt e) ∧
    (i = .start → t.resp = if t.armed then 1 else 0) ∧
    (∀ w, i = .rdstat w → t.resp = s.statusWord w) ∧
    ((i = .nop ∨ i = .stop ∨ (∃ v, i = .tone v ∨ i = .settx v ∨ i = .setlock v)) → t.resp = 0)

/-- An illegal command word sets ILL, answers 0 and changes nothing else (R200), on the command port and in a stimulus
trace (R79, R82), where the words read so are the illegal ones with op 0x0 to 0x7. The record and the port are the
response itself; the level of timer_ok is the input that came with the word. That the record names the error is the
model's choice (log 17): R200 records nothing beyond ILL. -/
def Obligations.IllegalCommandSetsIll : Prop :=
  (∀ (w : Byte) (r : IllegalWord) (ok : Option Bool) (s : State) (a : Arrival),
    a = .command w ok ∧ decodeCmd w = .error r ∨ a = .traceWord w ok ∧ decodeTrace w = .illegal r →
    perform a s = .next
      { s with timerOk := ok, ill := true, respValid := true, resp := 0,
               record := s.record ++ [.response 0 (some .illegalCommand)] }) ∧
  (∀ (w : Byte) (r : IllegalWord), decodeTrace w = .illegal r ↔ decodeCmd w = .error r ∧ (opField w).toNat ≤ 7) ∧
  ErrorCause.code .illegalCommand = 1

/-- R31: ILL is set by a command word that is not legal, on the port or in a trace, and by no operation; only reset clears it; RDSTAT 0 shows it;
it is 0 after reset. -/
def Obligations.IllStickyUntilReset : Prop :=
  (∀ a s t, perform a s = .next t → s.ill = true → t.ill = false → a = .resetCycle) ∧
  (∀ i s t, exec i s = .next t → t.ill = s.ill) ∧
  (∀ w ok s t, perform (.command w ok) s = .next t →
    (t.ill = true ↔ s.ill = true ∨ ∃ r, decodeCmd w = .error r)) ∧
  (∀ w ok s t, perform (.traceWord w ok) s = .next t →
    (t.ill = true ↔ s.ill = true ∨ ∃ r, decodeTrace w = .illegal r)) ∧
  (∀ s : State, s.status0.getLsbD 13 = s.ill) ∧ State.reset.ill = false

/-- R203: a command word adds exactly one entry to the record, with at most one error: IllegalCommand for an illegal
word, TimerUnavailable only for the word 0x30 while disarmed. -/
def Obligations.OneErrorPerCommandWord : Prop :=
  ∀ (w : Byte) (ok : Option Bool) (s t : State), perform (.command w ok) s = .next t →
    ∃ r c, t.record = s.record ++ [.response r c] ∧
      (c = some .illegalCommand ↔ ∃ e, decodeCmd w = .error e) ∧
      (c = some .timerUnavailable → w = 0x30 ∧ s.armed = false ∧ t.armed = false)

/-- R60: what arrives in one clock cycle is performed as the host's command, then POLL, then ETICK, in this order, which
is one interleaving of the three streams. So a POLL result in the cycle of a DRAIN of the same encoder is counted in the
next DRAIN, a STOP in the cycle of a tick leaves no tick, and the tick in the cycle of a TONE reads the new latch. -/
def Obligations.SameCycleOrder : Prop :=
  (∀ p : PortCycle, p.rstN = true →
    p.arrivals = (if p.cmdValid then [.command p.cmd (some p.timerOk)] else []) ++
      ((if p.pollStrobe then [.pollStrobe p.lines] else []) ++ (if p.timerTick then [.timerTick] else [])) ∧
    Interleaving (if p.cmdValid then [.command p.cmd (some p.timerOk)] else [])
      (if p.pollStrobe then [.pollStrobe p.lines] else []) (if p.timerTick then [.timerTick] else []) p.arrivals) ∧
  (∀ (p : PortCycle) (s : State), p.rstN = true → p.cmdValid = true → p.cmd = encode .stop →
    (runAll p.arrivals s).samples = s.samples ∧ (runAll p.arrivals s).duty = Config.params.mid) ∧
  (∀ (p : PortCycle) (s : State) (v : Bool), p.rstN = true → p.cmdValid = true → p.cmd = encode (.tone v) →
    p.timerTick = true → s.armed = true → s.env = .idle →
    (runAll p.arrivals s).env = if v then .attack else .idle) ∧
  (∀ (p : PortCycle) (s : State) (e : Encoder), p.rstN = true → p.cmdValid = true → p.cmd = encode (.drain e) →
    p.pollStrobe = true → s.suppressed e = false →
    (runAll p.arrivals s).resp = s.cnt e ∧
    ∃ t, exec (.drain e) (runAll p.arrivals s) = .next t ∧ t.resp =
      match (decoder (s.dec e) (pollPhase (phase1 p.lines) (phase0 p.lines) e)).2 with
      | .cw => 1
      | .ccw => -1
      | .none => 0)

/-- R210: POLL and ETICK touch disjoint state, so their order changes no result. -/
def Obligations.PollAndTickCommute : Prop :=
  ∀ (s t u : State) (p1 p0 : Phase),
    exec (.poll p1 p0) s = .next t → exec .etick s = .next u →
    ∃ v, exec .etick t = .next v ∧ exec (.poll p1 p0) u = .next v

/-! ## The encoder half -/

/-- R100: the whole decoder table. -/
def Obligations.DecoderTable : Prop :=
  (decoder .rStart 0 = (.rStart, .none) ∧ decoder .rStart 1 = (.rCwBegin, .none) ∧
    decoder .rStart 2 = (.rCcwBegin, .none) ∧ decoder .rStart 3 = (.rStart, .none)) ∧
  (decoder .rCwFinal 0 = (.rCwNext, .none) ∧ decoder .rCwFinal 1 = (.rStart, .none) ∧
    decoder .rCwFinal 2 = (.rCwFinal, .none) ∧ decoder .rCwFinal 3 = (.rStart, .cw)) ∧
  (decoder .rCwBegin 0 = (.rCwNext, .none) ∧ decoder .rCwBegin 1 = (.rCwBegin, .none) ∧
    decoder .rCwBegin 2 = (.rStart, .none) ∧ decoder .rCwBegin 3 = (.rStart, .none)) ∧
  (decoder .rCwNext 0 = (.rCwNext, .none) ∧ decoder .rCwNext 1 = (.rCwBegin, .none) ∧
    decoder .rCwNext 2 = (.rCwFinal, .none) ∧ decoder .rCwNext 3 = (.rStart, .none)) ∧
  (decoder .rCcwBegin 0 = (.rCcwNext, .none) ∧ decoder .rCcwBegin 1 = (.rStart, .none) ∧
    decoder .rCcwBegin 2 = (.rCcwBegin, .none) ∧ decoder .rCcwBegin 3 = (.rStart, .none)) ∧
  (decoder .rCcwFinal 0 = (.rCcwNext, .none) ∧ decoder .rCcwFinal 1 = (.rCcwFinal, .none) ∧
    decoder .rCcwFinal 2 = (.rStart, .none) ∧ decoder .rCcwFinal 3 = (.rStart, .ccw)) ∧
  (decoder .rCcwNext 0 = (.rCcwNext, .none) ∧ decoder .rCcwNext 1 = (.rCcwFinal, .none) ∧
    decoder .rCcwNext 2 = (.rCcwBegin, .none) ∧ decoder .rCcwNext 3 = (.rStart, .none)) ∧
  [DecState.rStart, .rCwFinal, .rCwBegin, .rCwNext, .rCcwBegin, .rCcwFinal, .rCcwNext].map DecState.bits =
    [0, 1, 2, 3, 4, 5, 6]

/-- The clockwise and the counter-clockwise sequence each give one result at their end, from R_START back to R_START,
whatever number of repeats of each value is sampled (R102, R103). -/
def Obligations.DetentSequencesCount : Prop :=
  ∀ a b c d : Nat,
    decodeRun .rStart (List.replicate (a + 1) 1 ++ List.replicate (b + 1) 0 ++ List.replicate (c + 1) 2 ++
      List.replicate (d + 1) 3) = (.rStart, 1) ∧
    decodeRun .rStart (List.replicate (a + 1) 2 ++ List.replicate (b + 1) 0 ++ List.replicate (c + 1) 1 ++
      List.replicate (d + 1) 3) = (.rStart, -1)

/-- Debounce is the decoder: the FINAL state of a direction is reached from R_START only through its three samples in
order, and samples that bounce between two neighbouring Gray values give no result (R103). -/
def Obligations.DebounceNeedsFullSequence : Prop :=
  (∀ l, (decodeRun .rStart l).1 = .rCwFinal → [1, 0, 2].Sublist l) ∧
  (∀ l, (decodeRun .rStart l).1 = .rCcwFinal → [2, 0, 1].Sublist l) ∧
  (∀ d p, (decoder d p).2 ≠ .none →
    (decoder d p).1 = .rStart ∧ p = 3 ∧ (d = .rCwFinal ∨ d = .rCcwFinal)) ∧
  (∀ (p q : Phase) (l : List Phase), grayNeighbours p q = true → (∀ x ∈ l, x = p ∨ x = q) →
    (decodeRun .rStart l).2 = 0)

/-- R105: POLL steps each decoder that is not suppressed and counts its result; while TX or LOCK is 1 the tuning
decoder is held and its count is 0. Its word is 0x80 with p1 and p0. Nothing else changes. -/
def Obligations.PollAdvancesDecoders : Prop :=
  (∀ (s : State) (p1 p0 : Phase), exec (.poll p1 p0) s = .next
    { s with
      dec0 := if s.tx || s.lock then s.dec0 else (decoder s.dec0 p0).1
      cnt0 := if s.tx || s.lock then 0 else
        match (decoder s.dec0 p0).2 with
        | .cw => s.cnt0 + 1
        | .ccw => s.cnt0 - 1
        | .none => s.cnt0
      dec1 := (decoder s.dec1 p1).1
      cnt1 :=
        match (decoder s.dec1 p1).2 with
        | .cw => s.cnt1 + 1
        | .ccw => s.cnt1 - 1
        | .none => s.cnt1 }) ∧
  (∀ p1 p0 : Phase, encode (.poll p1 p0) = 0x80 ||| (p1.setWidth 8 <<< 2) ||| p0.setWidth 8) ∧
  (∀ p1 p0 : Phase, decodeCmd (encode (.poll p1 p0)) = .error .eventOnCommandPort)

/-- R106: counting is two's complement modulo 2^32, an increment of 2^31 - 1 gives -2^31 and a decrement of -2^31 gives
2^31 - 1, in the POLL that counts; no flag, status word or record tells of it. -/
def Obligations.CountersWrap : Prop :=
  ∀ (s t : State) (e : Encoder) (p1 p0 : Phase), exec (.poll p1 p0) s = .next t → s.suppressed e = false →
    ((decoder (s.dec e) (pollPhase p1 p0 e)).2 = .cw →
      (t.cnt e).toInt = if (s.cnt e).toInt = 2 ^ 31 - 1 then -2 ^ 31 else (s.cnt e).toInt + 1) ∧
    ((decoder (s.dec e) (pollPhase p1 p0 e)).2 = .ccw →
      (t.cnt e).toInt = if (s.cnt e).toInt = -2 ^ 31 then 2 ^ 31 - 1 else (s.cnt e).toInt - 1) ∧
    t.ill = s.ill ∧ t.status0 = s.status0 ∧ t.record = s.record

/-- R39: only the tuning encoder is suppressed, while TX or LOCK is 1. -/
def Obligations.OnlyTuningSuppressed : Prop :=
  ∀ (s : State) (e : Encoder), s.suppressed e = true ↔ e = .tuning ∧ (s.tx = true ∨ s.lock = true)

/-- R107: DRAIN answers the counter and resets it in one step; suppressed, it answers 0 and discards the count. Its
words are 0x10 and 0x11, and a set bit of arg[3:1] makes the word illegal. -/
def Obligations.DrainReadsAndResets : Prop :=
  (∀ s : State, (s.tx || s.lock) = true → exec (.drain .tuning) s = .next
    { s with cnt0 := 0, respValid := true, resp := 0, record := s.record ++ [.response 0 none] }) ∧
  (∀ s : State, (s.tx || s.lock) = false → exec (.drain .tuning) s = .next
    { s with cnt0 := 0, respValid := true, resp := s.cnt0, record := s.record ++ [.response s.cnt0 none] }) ∧
  (∀ s : State, exec (.drain .function) s = .next
    { s with cnt1 := 0, respValid := true, resp := s.cnt1, record := s.record ++ [.response s.cnt1 none] }) ∧
  decodeCmd 0x10 = .ok (.drain .tuning) ∧ decodeCmd 0x11 = .ok (.drain .function) ∧
  (∀ w, opField w = 0x1 → (argField w).extractLsb 3 1 ≠ 0 → decodeCmd w = .error .argHighBitsNotZero)

/-- R110: SETTX writes TX, and SETTX 1 discards the pending tuning count in the same step; nothing else changes. -/
def Obligations.SettxWritesTx : Prop :=
  (∀ (v : Bool) (s : State), exec (.settx v) s = .next
    { s with tx := v, cnt0 := if v then 0 else s.cnt0, respValid := true, resp := 0,
             record := s.record ++ [.response 0 none] }) ∧
  decodeCmd 0x50 = .ok (.settx false) ∧ decodeCmd 0x51 = .ok (.settx true) ∧
  (∀ w, opField w = 0x5 → (argField w).extractLsb 3 1 ≠ 0 → decodeCmd w = .error .argHighBitsNotZero)

/-- R111: SETLOCK writes LOCK, and SETLOCK 1 discards the pending tuning count in the same step; nothing else
changes. -/
def Obligations.SetlockWritesLock : Prop :=
  (∀ (v : Bool) (s : State), exec (.setlock v) s = .next
    { s with lock := v, cnt0 := if v then 0 else s.cnt0, respValid := true, resp := 0,
             record := s.record ++ [.response 0 none] }) ∧
  decodeCmd 0x60 = .ok (.setlock false) ∧ decodeCmd 0x61 = .ok (.setlock true) ∧
  (∀ w, opField w = 0x6 → (argField w).extractLsb 3 1 ≠ 0 → decodeCmd w = .error .argHighBitsNotZero)

/-- R108: conservation. Over any run without reset, the counts drained, left and discarded add up to the results
produced and the count at the start, modulo 2^32; nothing of the function encoder is ever discarded, and nothing of the
tuning encoder while TX and LOCK stay 0; and where no counter wraps the sum is exact. From reset the count at the start
is 0. -/
def Obligations.DrainConservation : Prop :=
  ∀ (l : List Arrival) (s : State) (e : Encoder), .resetCycle ∉ l →
    (total (Moment.drained e) (trail l s) + ((runAll l s).cnt e).toInt + total (Moment.discarded e) (trail l s) ≡
      total (Moment.produced e) (trail l s) + (s.cnt e).toInt [ZMOD 2 ^ 32]) ∧
    total (Moment.discarded .function) (trail l s) = 0 ∧
    ((∀ m ∈ trail l s, m.quiet) → total (Moment.discarded .tuning) (trail l s) = 0) ∧
    ((∀ m ∈ trail l s, m.noWrap e) →
      total (Moment.drained e) (trail l s) + ((runAll l s).cnt e).toInt + total (Moment.discarded e) (trail l s) =
        total (Moment.produced e) (trail l s) + (s.cnt e).toInt) ∧
    (State.reset.cnt e).toInt = 0

/-- R109: while TX stays 1, whatever else happens, a DRAIN of the tuning encoder answers 0, and a DRAIN of the function
encoder answers the net count of its results since the drain before (modulo 2^32). -/
def Obligations.TransmitSuppressesTuningOnly : Prop :=
  ∀ (l : List Arrival) (s : State), s.tx = true → s.cnt1 = 0 →
    (∀ m ∈ trail l s, m.after.tx = true ∧ operationOf m.arrival ≠ some (.drain .function)) →
    (∃ t, exec (.drain .tuning) (runAll l s) = .next t ∧ t.resp = 0) ∧
    (∃ t, exec (.drain .function) (runAll l s) = .next t ∧
      t.resp = BitVec.ofInt 32 (total (Moment.produced .function) (trail l s)))

/-- R112: through a suppression, however long and whatever else happens in it, DEC[0] keeps the state it had, and no
step taken in it is counted; the first POLL after it goes on from that state. -/
def Obligations.SuppressionHoldsDecoder : Prop :=
  (∀ (l : List Arrival) (s : State), s.cnt0 = 0 →
    (∀ m ∈ trail l s, m.before.suppressed .tuning = true ∧ m.arrival ≠ .resetCycle) →
    (runAll l s).dec0 = s.dec0 ∧ (runAll l s).cnt0 = 0) ∧
  (∀ (s t : State) (p1 : Phase), s.suppressed .tuning = false → s.dec0 = .rCwFinal →
    exec (.poll p1 3) s = .next t → t.dec0 = .rStart ∧ t.cnt0 = s.cnt0 + 1)

/-- R56: DRAIN is a read with a side effect, so two with no POLL between them answer the counter and then 0; RDSTAT and NOP change nothing of the block;
STOP twice is STOP once; START after a START that succeeded changes nothing of the block. -/
def Obligations.RepeatedCommands : Prop :=
  (∀ (e : Encoder) (s t u : State) (l : List Arrival), exec (.drain e) s = .next t →
    (∀ a ∈ l, ∀ p1 p0, operationOf a ≠ some (.poll p1 p0)) → exec (.drain e) (runAll l t) = .next u →
    (s.suppressed e = false → t.resp = s.cnt e) ∧ u.resp = 0) ∧
  (∀ (w : StatusWord) (s t u : State), exec (.rdstat w) s = .next t → exec (.rdstat w) t = .next u →
    s.SameBlock t ∧ u.resp = t.resp) ∧
  (∀ s t : State, exec .nop s = .next t → s.SameBlock t) ∧
  (∀ s t u : State, exec .stop s = .next t → exec .stop t = .next u → t.SameBlock u) ∧
  (∀ s t u : State, exec .start s = .next t → t.resp = 1 → exec .start t = .next u → t.SameBlock u ∧ u.resp = 1)

/-- Which operations can change each element of the encoder half (R21 to R24, R32). -/
def Obligations.EncoderElementWriters : Prop :=
  ∀ (i : Instr) (s t : State), exec i s = .next t →
    ((t.dec0 ≠ s.dec0 ∨ t.dec1 ≠ s.dec1) → ∃ p1 p0, i = .poll p1 p0) ∧
    (t.tx ≠ s.tx → ∃ v, i = .settx v) ∧
    (t.lock ≠ s.lock → ∃ v, i = .setlock v) ∧
    (t.cnt0 ≠ s.cnt0 → (∃ p1 p0, i = .poll p1 p0) ∨ i = .drain .tuning ∨ i = .settx true ∨ i = .setlock true) ∧
    (t.cnt1 ≠ s.cnt1 → (∃ p1 p0, i = .poll p1 p0) ∨ i = .drain .function)

/-! ## The envelope half -/

/-- R130: scale computes in the integers with division toward zero, and the result does not wrap. -/
def Obligations.ScaleIsExact : Prop :=
  ∀ (c : Params) (raw : Sample),
    ((scale c raw).toNat : Int) =
      Int.tdiv ((raw.toNat : Int) - (c.mid.toNat : Int)) (c.atten : Int) + (c.mid.toNat : Int)

/-- R131: scale lies between MID and raw, within the wrap count for any raw that is, fixes MID, is the identity for
ATTEN = 1, is monotone, and below MID rounds up toward MID. -/
def Obligations.ScaleProperties : Prop :=
  ∀ (c : Params) (raw raw' : Sample),
    (c.mid ≤ raw → c.mid ≤ scale c raw ∧ scale c raw ≤ raw) ∧
    (raw ≤ c.mid → raw ≤ scale c raw ∧ scale c raw ≤ c.mid) ∧
    (raw ≤ c.pwmWrap → scale c raw ≤ c.pwmWrap) ∧
    scale c c.mid = c.mid ∧
    (c.atten = 1 → scale c raw = raw) ∧
    (raw ≤ raw' → scale c raw ≤ scale c raw') ∧
    (raw < c.mid → (scale c raw).toNat = c.mid.toNat - (c.mid.toNat - raw.toNat) / c.atten)

/-- R133 with R132: one tick in each envelope state, the sample chosen by the state before it; the tick of a table's
last entry changes the state; TONE is read only in IDLE and at the last sustain entry; nothing else changes. ETICK's
word is 0x90, and it is illegal on the command port. -/
def Obligations.EtickWalksTables : Prop :=
  (∀ s : State, s.armed = true → s.env = .idle → exec .etick s = .next
    { s with env := if s.tone then .attack else .idle, idx := if s.tone then 0 else s.idx,
             duty := Config.params.mid, samples := s.samples ++ [Config.params.mid] }) ∧
  (∀ s : State, s.armed = true → s.env = .attack → exec .etick s = .next
    { s with env := if s.idx = 63 then .sustain else .attack, idx := if s.idx = 63 then 0 else s.idx + 1,
             duty := scale Config.params Config.params.attackTable[s.idx.toNat],
             samples := s.samples ++ [scale Config.params Config.params.attackTable[s.idx.toNat]] }) ∧
  (∀ (s : State) (h : s.idx.toNat < 16), s.armed = true → s.env = .sustain → exec .etick s = .next
    { s with env := if s.idx = 15 ∧ s.tone = false then .release else .sustain,
             idx := if s.idx = 15 then 0 else s.idx + 1,
             duty := scale Config.params Config.params.sustainTable[s.idx.toNat],
             samples := s.samples ++ [scale Config.params Config.params.sustainTable[s.idx.toNat]] }) ∧
  (∀ s : State, s.armed = true → s.env = .release → exec .etick s = .next
    { s with env := if s.idx = 63 then .idle else .release, idx := if s.idx = 63 then 0 else s.idx + 1,
             duty := scale Config.params Config.params.attackTable[63 - s.idx.toNat],
             samples := s.samples ++ [scale Config.params Config.params.attackTable[63 - s.idx.toNat]] }) ∧
  encode .etick = 0x90 ∧ decodeCmd 0x90 = .error .eventOnCommandPort

/-- R82: an ETICK word met while the timer is disarmed is skipped and recorded as "no event"; R208: a pulse of the
timer port is then no event at all. -/
def Obligations.DisarmedTickSkipped : Prop :=
  (∀ (s : State) (ok : Option Bool), s.armed = false → perform (.traceWord 0x90 ok) s = .next
    { s with timerOk := ok, record := s.record ++ [.noEvent] }) ∧
  (∀ s : State, s.armed = false → exec .etick s = .next { s with record := s.record ++ [.noEvent] }) ∧
  (∀ s : State, s.armed = false → perform .timerTick s = .next s)

/-- R134: on a tick that does not sample the latch, its value makes no difference to anything but itself. -/
def Obligations.LatchReadAtTwoPoints : Prop :=
  ∀ (s t : State) (v : Bool), ¬ s.SamplesLatch → exec .etick s = .next t →
    exec .etick { s with tone := v } = .next { t with tone := v }

/-- R135: the keyed sequence. From an armed idle state, with the latch set at tick 0 and first found clear at the end
of the K-th sustain cycle, ticks 1 to 128 + 16K give attack, K sustain cycles and the attack reversed, the state is
then IDLE, and the next tick outputs MID; whatever the latch is on every other tick. -/
def Obligations.KeyedSequence : Prop :=
  ∀ (s : State) (f : Nat → Bool) (k : Nat), s.armed = true → s.env = .idle → 1 ≤ k →
    f 0 = true → (∀ j, 1 ≤ j → j < k → f (64 + 16 * j) = true) → f (64 + 16 * k) = false →
    let t := keyedRun f (1 + (128 + 16 * k)) s
    let u := keyedRun f (1 + (128 + 16 * k) + 1) s
    t.samples = s.samples ++ [Config.params.mid] ++ keyedSamples Config.params k ∧
    (keyedSamples Config.params k).length = 64 + 16 * k + 64 ∧
    t.env = .idle ∧ u.duty = Config.params.mid ∧ u.samples = t.samples ++ [Config.params.mid]

/-- What else arrives between the ticks makes no difference to the envelope: over any run that starts armed and has no
STOP and no reset in it (POLLs, other commands and illegal words may stand anywhere, and a refused trace word ends it), the envelope
half ends as the keyed run whose k-th tick finds the latch as the run's k-th tick did. So KeyedSequence, KeyUpLatency and
KeyDownLatency, said of keyed runs, hold of such runs (R133, R135, R137 to R139). -/
def Obligations.RunsFollowKeyedRun : Prop :=
  ∀ (l : List Arrival) (s : State), s.armed = true → (∀ a ∈ l, KeepsWalking a) →
    let ticks := ticksOf (trail l s)
    let t := keyedRun (latchAt ticks) ticks.length s
    (runAll l s).env = t.env ∧ (runAll l s).idx = t.idx ∧ (runAll l s).duty = t.duty ∧
    (runAll l s).samples = t.samples ∧ (runAll l s).armed = true

/-- R136: without a STOP (or a reset) in between, every pair of consecutive samples is one of the listed pairs,
whatever arrives. The state before is any that the walk leaves (reset is one), and its DUTY counts as the sample before
the first. -/
def Obligations.ConsecutiveSamplesAreNeighbours : Prop :=
  State.reset.DutyOnWalk Config.params ∧
  ∀ (l : List Arrival) (s : State), s.Inv → s.DutyOnWalk Config.params → (∀ a ∈ l, KeepsWalking a) →
    (runAll l s).DutyOnWalk Config.params ∧
    ∃ new, (runAll l s).samples = s.samples ++ new ∧
      ∀ i (h : i + 1 < (s.duty :: new).length),
        Neighbours Config.params (s.duty :: new)[i] (s.duty :: new)[i + 1]

/-- R136: where every boundary difference is at most the largest in-table step (SMOOTH), no pair of neighbouring
samples jumps by more; the property of the tables is a hypothesis, and no table is assumed to have it. -/
def Obligations.SmoothTablesBoundJumps : Prop :=
  ∀ (c : Params) (m : Nat) (x y : Sample), InTableStepsAtMost c m → Smooth c m → Neighbours c x y → gap x y ≤ m

/-- R138: a latch cleared in SUSTAIN starts RELEASE when the current cycle is done, and one cleared in ATTACK when the
attack and one full sustain cycle are, on that tick and not before. -/
def Obligations.KeyUpLatency : Prop :=
  (∀ (s : State) (n : Nat), s.armed = true → s.env = .sustain → s.idx.toNat ≤ 15 → s.idx.toNat + n ≤ 16 →
    (keyedRun (fun _ => false) n s).env = if s.idx.toNat + n = 16 then .release else .sustain) ∧
  (∀ (s : State) (n : Nat), s.armed = true → s.env = .attack → s.idx.toNat + n ≤ 64 + 16 →
    (keyedRun (fun _ => false) n s).env =
      if s.idx.toNat + n < 64 then .attack else if s.idx.toNat + n < 64 + 16 then .sustain else .release)

/-- R137: a latch set in IDLE takes effect at the next tick, which outputs MID, and the first attack sample is on the
tick after; one set in RELEASE waits for the rest of the release and one IDLE tick. -/
def Obligations.KeyDownLatency : Prop :=
  (∀ s : State, s.armed = true → s.env = .idle →
    (keyedRun (fun _ => true) 1 s).env = .attack ∧ (keyedRun (fun _ => true) 1 s).duty = Config.params.mid ∧
    (keyedRun (fun _ => true) 2 s).duty = attackSample Config.params 0) ∧
  (∀ (s : State) (n : Nat), s.armed = true → s.env = .release → s.idx.toNat + n ≤ 65 →
    (keyedRun (fun _ => true) n s).env =
      if s.idx.toNat + n < 64 then .release else if s.idx.toNat + n = 64 then .idle else .attack)

/-- R139: TONE writes the latch and nothing else, at once and in any state of the envelope. -/
def Obligations.ToneWritesLatch : Prop :=
  (∀ (v : Bool) (s : State), exec (.tone v) s = .next
    { s with tone := v, respValid := true, resp := 0, record := s.record ++ [.response 0 none] }) ∧
  decodeCmd 0x20 = .ok (.tone false) ∧ decodeCmd 0x21 = .ok (.tone true) ∧
  (∀ w, opField w = 0x2 → (argField w).extractLsb 3 1 ≠ 0 → decodeCmd w = .error .argHighBitsNotZero)

/-- R140: START while armed answers 1 and has no effect, taking no draw; disarmed it takes the draw, and on success
arms the timer, enables the channel at MID and answers 1, on failure answers 0 and leaves the block as it was; nothing
else of the block changes. The word is 0x30, and a non-zero arg makes it illegal. -/
def Obligations.StartArmsOnSuccess : Prop :=
  (∀ s : State, s.armed = true → exec .start s = .next
    { s with respValid := true, resp := 1, record := s.record ++ [.response 1 none] }) ∧
  (∀ s : State, s.armed = false → s.timerAnswer = true →
    ∃ t, exec .start s = .next t ∧ t.respValid = true ∧ t.resp = 1 ∧
      State.SameBlock { s with armed := true, pwmEn := true, duty := Config.params.mid } t) ∧
  (∀ s : State, s.armed = false → s.timerAnswer = false →
    ∃ t, exec .start s = .next t ∧ t.respValid = true ∧ t.resp = 0 ∧ s.SameBlock t) ∧
  decodeCmd 0x30 = .ok .start ∧ (∀ w, opField w = 0x3 → argField w ≠ 0 → decodeCmd w = .error .argNotZero)

/-- The model's own form of the draw TIMER_OK (log 4): a START from the disarmed state uses the level fixed for it, once,
or else the free value the counter of draws numbers, and moves the counter on; so two attempts never share an answer. No
other operation takes a draw. -/
def Obligations.DrawUsedOnce : Prop :=
  (∀ (s : State) (b : Bool), s.armed = false → s.timerOk = some b →
    s.timerAnswer = b ∧ ∃ t, exec .start s = .next t ∧ t.timerOk = none ∧ t.draws = s.draws) ∧
  (∀ s : State, s.armed = false → s.timerOk = none →
    s.timerAnswer = Config.timerOk s.draws ∧
    ∃ t, exec .start s = .next t ∧ t.timerOk = none ∧ t.draws = s.draws + 1) ∧
  (∀ (i : Instr) (s t : State), exec i s = .next t → (t.timerOk ≠ s.timerOk ∨ t.draws ≠ s.draws) →
    i = .start ∧ s.armed = false) ∧
  (∀ (i : Instr) (s t : State), exec i s = .next t → t.stimulus = s.stimulus)

/-- TimerUnavailable is raised by START when the timer is disarmed and the draw is 0 (R201): the answer is 0 and no
state of the block changes, and another START whose draw is 1 succeeds. That the record names the error is the model's
choice (log 17): R201 records nothing. -/
def Obligations.TimerUnavailableLeavesBlock : Prop :=
  ∀ s : State, s.armed = false → s.timerAnswer = false →
    ∃ t, exec .start s = .next t ∧ s.SameBlock t ∧ t.resp = 0 ∧
      t.record = s.record ++ [.response 0 (some .timerUnavailable)] ∧ ErrorCause.code .timerUnavailable = 2 ∧
      ∃ u, exec .start { t with timerOk := some true } = .next u ∧ u.armed = true ∧ u.resp = 1

/-- R141: STOP disarms, returns the duty to MID, disables the channel and resets the envelope in one step, in every
state; TONE, the encoders and the samples are unchanged. -/
def Obligations.StopResetsEnvelope : Prop :=
  (∀ s : State, exec .stop s = .next
    { s with armed := false, duty := Config.params.mid, pwmEn := false, env := .idle, idx := 0,
             respValid := true, resp := 0, record := s.record ++ [.response 0 none] }) ∧
  decodeCmd 0x40 = .ok .stop ∧ (∀ w, opField w = 0x4 → argField w ≠ 0 → decodeCmd w = .error .argNotZero)

/-- R142: while ARMED = 1 no operation but ETICK and STOP changes DUTY, and TONE never writes DUTY, ENV or IDX. -/
def Obligations.ArmedDutyWriters : Prop :=
  (∀ (i : Instr) (s t : State), s.armed = true → exec i s = .next t → t.duty ≠ s.duty → i = .etick ∨ i = .stop) ∧
  (∀ (v : Bool) (s t : State), exec (.tone v) s = .next t → t.duty = s.duty ∧ t.env = s.env ∧ t.idx = s.idx)

/-- Which operations can change each element of the envelope half (R25 to R30, R34). -/
def Obligations.EnvelopeElementWriters : Prop :=
  ∀ (i : Instr) (s t : State), exec i s = .next t →
    (t.tone ≠ s.tone → ∃ v, i = .tone v) ∧
    ((t.env ≠ s.env ∨ t.idx ≠ s.idx) → i = .etick ∨ i = .stop) ∧
    ((t.armed ≠ s.armed ∨ t.pwmEn ≠ s.pwmEn) → i = .start ∨ i = .stop) ∧
    (t.duty ≠ s.duty → i = .etick ∨ i = .start ∨ i = .stop) ∧
    (t.samples ≠ s.samples → i = .etick ∧ s.armed = true ∧ t.samples = s.samples ++ [t.duty])

/-! ## Block control, status and outputs -/

/-- R170: NOP answers 0 and changes nothing; its word is 0x00, and 0x01 to 0x0F are illegal. -/
def Obligations.NopAnswersZero : Prop :=
  (∀ s : State, exec .nop s = .next
    { s with respValid := true, resp := 0, record := s.record ++ [.response 0 none] }) ∧
  decodeCmd 0x00 = .ok .nop ∧
  (∀ w : Byte, 0x01 ≤ w.toNat → w.toNat ≤ 0x0F → decodeCmd w = .error .argNotZero)

/-- R171: RDSTAT answers the status word it selects and changes nothing of the block; its words are 0x70 and 0x71. -/
def Obligations.RdstatAnswersStatus : Prop :=
  (∀ s : State, exec (.rdstat .status0) s = .next
    { s with respValid := true, resp := s.status0, record := s.record ++ [.response s.status0 none] }) ∧
  (∀ s : State, exec (.rdstat .status1) s = .next
    { s with respValid := true, resp := s.status1, record := s.record ++ [.response s.status1 none] }) ∧
  decodeCmd 0x70 = .ok (.rdstat .status0) ∧ decodeCmd 0x71 = .ok (.rdstat .status1) ∧
  (∀ w, opField w = 0x7 → (argField w).extractLsb 3 1 ≠ 0 → decodeCmd w = .error .argHighBitsNotZero)

/-- R35: every field of STATUS0 at its bits. -/
def Obligations.StatusZeroLayout : Prop :=
  ∀ s : State,
    s.status0.extractLsb' 0 2 = s.env.bits ∧ s.status0.extractLsb' 2 6 = s.idx ∧
    s.status0.getLsbD 8 = s.armed ∧ s.status0.getLsbD 9 = s.pwmEn ∧ s.status0.getLsbD 10 = s.tone ∧
    s.status0.getLsbD 11 = s.tx ∧ s.status0.getLsbD 12 = s.lock ∧ s.status0.getLsbD 13 = s.ill ∧
    s.status0.extractLsb' 14 2 = 0 ∧ s.status0.extractLsb' 16 16 = s.duty ∧
    (Env.bits .idle = 0 ∧ Env.bits .attack = 1 ∧ Env.bits .sustain = 2 ∧ Env.bits .release = 3)

/-- R36: every field of STATUS1 at its bits; the decoder numbers are those of R21. -/
def Obligations.StatusOneLayout : Prop :=
  ∀ s : State,
    s.status1.extractLsb' 0 3 = s.dec0.bits ∧ s.status1.getLsbD 3 = false ∧
    s.status1.extractLsb' 4 3 = s.dec1.bits ∧ s.status1.extractLsb' 7 25 = 0

/-- R40: the outputs are functions of the state. -/
def Obligations.OutputsFromState : Prop :=
  ∀ s : State, s.outputs.pwmDuty = s.duty ∧ s.outputs.pwmEnable = s.pwmEn ∧ s.outputs.timerArm = s.armed
end

