-- ==== Sys2Proof/Laws/State.lean ====
section
/-! SUPPORT. The small lemmas of the operations over the state: what each leaves in each field. -/

namespace Sys2Proof.Machine

variable (s : State)

/-! ## The encoder file -/

@[simp] theorem dec_tuning : s.dec .tuning = s.dec0 := rfl
@[simp] theorem dec_function : s.dec .function = s.dec1 := rfl
@[simp] theorem cnt_tuning : s.cnt .tuning = s.cnt0 := rfl
@[simp] theorem cnt_function : s.cnt .function = s.cnt1 := rfl
@[simp] theorem setDec_tuning (d : DecState) : s.setDec .tuning d = { s with dec0 := d } := rfl
@[simp] theorem setDec_function (d : DecState) : s.setDec .function d = { s with dec1 := d } := rfl
@[simp] theorem setCnt_tuning (v : Word) : s.setCnt .tuning v = { s with cnt0 := v } := rfl
@[simp] theorem setCnt_function (v : Word) : s.setCnt .function v = { s with cnt1 := v } := rfl
@[simp] theorem suppressed_tuning : s.suppressed .tuning = (s.tx || s.lock) := rfl
@[simp] theorem suppressed_function : s.suppressed .function = false := rfl

theorem cnt_setCnt_same (e : Encoder) (v : Word) : (s.setCnt e v).cnt e = v := by cases e <;> rfl
theorem dec_setDec_same (e : Encoder) (d : DecState) : (s.setDec e d).dec e = d := by cases e <;> rfl
theorem cnt_setCnt_other {e e' : Encoder} (h : e' ≠ e) (v : Word) : (s.setCnt e v).cnt e' = s.cnt e' := by
  cases e <;> cases e' <;> first | rfl | exact absurd rfl h
theorem dec_setDec_other {e e' : Encoder} (h : e' ≠ e) (d : DecState) : (s.setDec e d).dec e' = s.dec e' := by
  cases e <;> cases e' <;> first | rfl | exact absurd rfl h

/-! ## The response port: `respond` writes the port and the record, and no state of the block -/

@[simp] theorem respond_dec0 (r : Word) : (s.respond r).dec0 = s.dec0 := rfl
@[simp] theorem respond_dec1 (r : Word) : (s.respond r).dec1 = s.dec1 := rfl
@[simp] theorem respond_cnt0 (r : Word) : (s.respond r).cnt0 = s.cnt0 := rfl
@[simp] theorem respond_cnt1 (r : Word) : (s.respond r).cnt1 = s.cnt1 := rfl
@[simp] theorem respond_tx (r : Word) : (s.respond r).tx = s.tx := rfl
@[simp] theorem respond_lock (r : Word) : (s.respond r).lock = s.lock := rfl
@[simp] theorem respond_tone (r : Word) : (s.respond r).tone = s.tone := rfl
@[simp] theorem respond_env (r : Word) : (s.respond r).env = s.env := rfl
@[simp] theorem respond_idx (r : Word) : (s.respond r).idx = s.idx := rfl
@[simp] theorem respond_armed (r : Word) : (s.respond r).armed = s.armed := rfl
@[simp] theorem respond_pwmEn (r : Word) : (s.respond r).pwmEn = s.pwmEn := rfl
@[simp] theorem respond_duty (r : Word) : (s.respond r).duty = s.duty := rfl
@[simp] theorem respond_ill (r : Word) : (s.respond r).ill = s.ill := rfl
@[simp] theorem respond_samples (r : Word) : (s.respond r).samples = s.samples := rfl
@[simp] theorem respond_respValid (r : Word) : (s.respond r).respValid = true := rfl
@[simp] theorem respond_resp (r : Word) : (s.respond r).resp = r := rfl
@[simp] theorem respond_record (r : Word) : (s.respond r).record = s.record ++ [.response r none] := rfl
@[simp] theorem respond_timerOk (r : Word) : (s.respond r).timerOk = s.timerOk := rfl
@[simp] theorem respond_stimulus (r : Word) : (s.respond r).stimulus = s.stimulus := rfl
@[simp] theorem respond_draws (r : Word) : (s.respond r).draws = s.draws := rfl

/-! ## The two errors -/

theorem illegalCommand_eq : s.illegalCommand =
    { s with ill := true, respValid := true, resp := 0, record := s.record ++ [.response 0 (some .illegalCommand)] } :=
  rfl

theorem timerUnavailable_eq : s.timerUnavailable =
    { s with respValid := true, resp := 0, record := s.record ++ [.response 0 (some .timerUnavailable)] } := rfl

/-! ## The draw -/

@[simp] theorem timerAnswer_some {b : Bool} (h : s.timerOk = some b) : s.timerAnswer = b := by
  simp [State.timerAnswer, h]
@[simp] theorem timerAnswer_none (h : s.timerOk = none) : s.timerAnswer = Config.timerOk s.draws := by
  simp [State.timerAnswer, h]

/-- A draw changes only the environment's own fields. -/
theorem afterDraw_eq : s.afterDraw = { s with timerOk := none, draws := s.afterDraw.draws } := by
  unfold State.afterDraw
  split
  · rfl
  · next h => cases s; simp_all

/-! ## The tick -/

theorem tick_eq (c : Params) : s.tick c =
    { s with
      env := (nextEnvelope s.tone s.env s.idx).1
      idx := (nextEnvelope s.tone s.env s.idx).2
      duty := tickSample c s.env s.idx
      samples := s.samples ++ [tickSample c s.env s.idx] } := rfl

@[simp] theorem etick_armed (c : Params) (h : s.armed = true) : s.etick c = s.tick c := by simp [State.etick, h]
@[simp] theorem etick_disarmed (c : Params) (h : s.armed = false) : s.etick c = s.recordNoEvent := by
  simp [State.etick, h]

end Sys2Proof.Machine
end

