-- ==== Sys2Proof/Laws/Ops.lean ====
section
/-! SUPPORT. One lemma per shared operation that says what it can do, for the proofs to cite. -/

namespace Sys2Proof.Machine

/-- What one encoder's part of a POLL does to its own decoder and counter: held and discarded, or one decoder step. -/
theorem pollEncoder_tuning (s : State) (p : Phase) : s.pollEncoder .tuning p =
    if s.tx || s.lock then { s with cnt0 := 0 }
    else { s with dec0 := (decoder s.dec0 p).1, cnt0 := (decoder s.dec0 p).2.count s.cnt0 } := by
  simp [State.pollEncoder]

/-- The function encoder is never suppressed. -/
theorem pollEncoder_function (s : State) (p : Phase) : s.pollEncoder .function p =
    { s with dec1 := (decoder s.dec1 p).1, cnt1 := (decoder s.dec1 p).2.count s.cnt1 } := by
  simp [State.pollEncoder]

/-- A POLL, both encoders, as one update. -/
theorem poll_eq (s : State) (p1 p0 : Phase) : (s.pollEncoder .tuning p0).pollEncoder .function p1 =
    { s with
      dec0 := if s.tx || s.lock then s.dec0 else (decoder s.dec0 p0).1
      cnt0 := if s.tx || s.lock then 0 else (decoder s.dec0 p0).2.count s.cnt0
      dec1 := (decoder s.dec1 p1).1
      cnt1 := (decoder s.dec1 p1).2.count s.cnt1 } := by
  rw [pollEncoder_function, pollEncoder_tuning]
  split <;> simp_all

/-- A DRAIN as one update: the counter it resets, and the response. -/
theorem drain_eq (s : State) (e : Encoder) : s.drain e =
    { s with
      cnt0 := if e = .tuning then 0 else s.cnt0
      cnt1 := if e = .function then 0 else s.cnt1
      respValid := true
      resp := if s.suppressed e then 0 else s.cnt e
      record := s.record ++ [.response (if s.suppressed e then 0 else s.cnt e) none] } := by
  unfold State.drain
  cases e with
  | tuning => split <;> simp_all [State.respond, State.answer]
  | function => simp [State.respond, State.answer]

/-- The three outcomes of a START: no effect while armed, armed by the draw, or turned away by it. -/
theorem start_eq (c : Params) (s : State) : s.start c =
    if s.armed then { s with respValid := true, resp := 1, record := s.record ++ [.response 1 none] }
    else if s.timerAnswer then
      { s with armed := true, pwmEn := true, duty := c.mid, respValid := true, resp := 1,
               record := s.record ++ [.response 1 none], timerOk := none, draws := s.afterDraw.draws }
    else
      { s with respValid := true, resp := 0, record := s.record ++ [.response 0 (some .timerUnavailable)],
               timerOk := none, draws := s.afterDraw.draws } := by
  unfold State.start State.arm
  split
  · rfl
  · split
    · simp only [State.respond, State.answer]; rw [afterDraw_eq]
    · simp only [State.timerUnavailable, State.answer]; rw [afterDraw_eq]

/-- The cases of a tick's next state: a state walks its table, and leaves it after the last entry. -/
theorem nextEnvelope_cases (t : Bool) (env : Env) (idx : BitVec 6) :
    (env = .idle ∧ t = false ∧ nextEnvelope t env idx = (.idle, idx)) ∨
    (env = .idle ∧ t = true ∧ nextEnvelope t env idx = (.attack, 0)) ∨
    (env = .attack ∧ idx ≠ 63 ∧ nextEnvelope t env idx = (.attack, idx + 1)) ∨
    (env = .attack ∧ idx = 63 ∧ nextEnvelope t env idx = (.sustain, 0)) ∨
    (env = .sustain ∧ idx ≠ 15 ∧ nextEnvelope t env idx = (.sustain, idx + 1)) ∨
    (env = .sustain ∧ idx = 15 ∧ t = true ∧ nextEnvelope t env idx = (.sustain, 0)) ∨
    (env = .sustain ∧ idx = 15 ∧ t = false ∧ nextEnvelope t env idx = (.release, 0)) ∨
    (env = .release ∧ idx ≠ 63 ∧ nextEnvelope t env idx = (.release, idx + 1)) ∨
    (env = .release ∧ idx = 63 ∧ nextEnvelope t env idx = (.idle, 0)) := by
  cases env <;> cases t <;> simp [nextEnvelope] <;>
    by_cases h : idx = 63#6 <;> by_cases h' : idx = 15#6 <;> simp_all

/-- A decoder step gives a result only on the way from a FINAL state into the detent. -/
theorem decoder_result (d : DecState) (p : Phase) :
    (decoder d p).2 = .none ∨
    (d = .rCwFinal ∧ p = 3 ∧ decoder d p = (.rStart, .cw)) ∨
    (d = .rCcwFinal ∧ p = 3 ∧ decoder d p = (.rStart, .ccw)) := by
  cases d <;> revert p <;> decide

/-- Performing an arrival fails only at a trace word the reader refuses. -/
theorem perform_cases (a : Arrival) (s : State) :
    (∃ t, perform a s = .next t) ∨
    ∃ w ok, a = .traceWord w ok ∧ decodeTrace w = .notAnEvent ∧ perform a s = .refused (.notATraceWord w) := by
  cases a with
  | command w ok =>
    left
    simp only [perform, performCommand]
    split
    · next i _ => cases i <;> exact ⟨_, rfl⟩
    · exact ⟨_, rfl⟩
  | pollStrobe l => exact .inl ⟨_, rfl⟩
  | timerTick =>
    left
    simp only [perform]
    split <;> exact ⟨_, rfl⟩
  | traceWord w ok =>
    simp only [perform, performTraceWord]
    split
    · next i _ => left; cases i <;> exact ⟨_, rfl⟩
    · exact .inl ⟨_, rfl⟩
    · next h => exact .inr ⟨w, ok, rfl, h, rfl⟩
  | resetCycle => exact .inl ⟨_, rfl⟩

/-- Taking an arrival touches only the environment's fields. -/
theorem takeArrival_eq (s : State) :
    s.takeArrival = { s with stimulus := s.takeArrival.stimulus, draws := s.takeArrival.draws } := by
  unfold State.takeArrival
  split
  · rfl
  · next h => cases s; simp_all

/-- A step performs the oldest known arrival. -/
theorem step_cons {s : State} {a : Arrival} {rest : List Arrival} (h : s.stimulus = a :: rest) :
    step s = perform a { s with stimulus := rest } := by
  simp [step, State.nextArrival, State.takeArrival, h]

/-- A step with nothing known performs a free arrival. -/
theorem step_nil {s : State} (h : s.stimulus = []) :
    step s = perform (Config.arrival s.draws) { s with draws := s.draws + 1 } := by
  simp [step, State.nextArrival, State.takeArrival, h]

end Sys2Proof.Machine
end

