-- ==== Sys2Proof/Laws/PerInstr.lean ====
section
/-! SUPPORT. Statements made of every instruction as syntax, one lemma per constructor. -/

namespace Sys2Proof.Laws.FormatAdmits

/-- The instruction is well formed, and the operand field of its word is one its format admits (30_encoding.md R72). -/
def Statement (i : Instr) : Prop := i.wf = true ∧ i.format.admits (argField (encode i)) = true

theorem nop : Statement .nop := by unfold Statement; decide
theorem drain (e : Encoder) : Statement (.drain e) := by cases e <;> unfold Statement <;> decide
theorem tone (v : Bool) : Statement (.tone v) := by cases v <;> unfold Statement <;> decide
theorem start : Statement .start := by unfold Statement; decide
theorem stop : Statement .stop := by unfold Statement; decide
theorem settx (v : Bool) : Statement (.settx v) := by cases v <;> unfold Statement <;> decide
theorem setlock (v : Bool) : Statement (.setlock v) := by cases v <;> unfold Statement <;> decide
theorem rdstat (s : StatusWord) : Statement (.rdstat s) := by cases s <;> unfold Statement <;> decide
theorem poll (p1 p0 : Phase) : Statement (.poll p1 p0) := ⟨rfl, rfl⟩
theorem etick : Statement .etick := by unfold Statement; decide

end Sys2Proof.Laws.FormatAdmits
end

