-- ==== Sys2Proof/Tests/Slice0.lean ====
section
/-! SUPPORT. The model's own tests. Expected values are those of spec/95_test_vectors.md, whose vector is named, or are
worked out by hand from the rule named. The second half shows for each statement with hypotheses a case that meets them
all (its witness). -/

namespace Sys2Proof.Tests

open Sys2Proof.Machine

/-! ## Configuration TC (95_test_vectors.md §0) and the check WF (R14) -/

/-- The raw parameters of TC. -/
def tcRaw : RawParams where
  mid := 128
  atten := 2
  pwmWrap := 255
  attackTable := Vector.ofFn (fun i => 128 + 2 * BitVec.ofNat 16 i.val)
  sustainTable := #v[254, 244, 217, 176, 128, 80, 39, 12, 2, 12, 39, 80, 128, 176, 217, 244]

/-- TC satisfies WF, so it is a configuration of the machine. -/
def tc : Params := { toRawParams := tcRaw }

/-- The reset state under TC. -/
def tcReset : State := State.resetWith tc

/-- The envelope half running under TC in this envelope state. -/
def running (env : Env) (idx : BitVec 6) (tone : Bool) : State :=
  { tcReset with armed := true, pwmEn := true, env := env, idx := idx, tone := tone }

/-- The state of an outcome, if it is one. -/
def stateOf (o : Host.Outcome State Fault Refusal) : Option State :=
  match o with
  | .next s => some s
  | .fault _ => none
  | .refused _ => none

theorem test_wf_refuses_zero_attenuation : ¬ ({ tcRaw with atten := 0 } : RawParams).AttenPositive := by decide
theorem test_wf_refuses_midpoint_above_wrap : ¬ ({ tcRaw with mid := 256 } : RawParams).MidInWrap := by decide
theorem test_wf_refuses_attack_entry_above_wrap : ¬ ({ tcRaw with pwmWrap := 253 } : RawParams).AttackInWrap := by
  decide
theorem test_wf_refuses_sustain_entry_above_wrap :
    ¬ ({ tcRaw with sustainTable := tcRaw.sustainTable.set 8 256 } : RawParams).SustainInWrap := by decide

/-! ## Formats: an operand field each check refuses (R72) -/

theorem test_f0_refuses_operand : Format.f0.admits 0b1000 = false := by decide
theorem test_f1_refuses_high_bit : Format.f1.admits 0b0010 = false := by decide
theorem test_fe_refuses_operand : Format.fe.admits 0b0001 = false := by decide

/-! ## Decoding: each constructor's word written out from R73 -/

theorem test_decode_nop : decodeCmd 0b0000_0000 = .ok .nop := by decide
theorem test_decode_drain : decodeCmd 0b0001_0001 = .ok (.drain .function) := by decide
theorem test_decode_tone : decodeCmd 0b0010_0001 = .ok (.tone true) := by decide
theorem test_decode_start : decodeCmd 0b0011_0000 = .ok .start := by decide
theorem test_decode_stop : decodeCmd 0b0100_0000 = .ok .stop := by decide
theorem test_decode_settx : decodeCmd 0b0101_0000 = .ok (.settx false) := by decide
theorem test_decode_setlock : decodeCmd 0b0110_0001 = .ok (.setlock true) := by decide
theorem test_decode_rdstat : decodeCmd 0b0111_0000 = .ok (.rdstat .status0) := by decide
/-- `POLL 3, 1` = 0x8D (R80). -/
theorem test_decode_poll : decodeTrace 0b1000_1101 = .operation (.poll 3 1) := by decide
theorem test_decode_etick : decodeTrace 0b1001_0000 = .operation .etick := by decide

/-- V-I1 to V-I8: each is illegal, with the clause of R77 the vector's reason names. -/
theorem test_decode_illegal_vectors :
    ([0xA0, 0xFF, 0x01, 0x12, 0x31, 0x80, 0x90, 0x7E] : List Byte).map decodeCmd =
      [.error .reservedOp, .error .reservedOp, .error .argNotZero, .error .argHighBitsNotZero, .error .argNotZero,
        .error .eventOnCommandPort, .error .eventOnCommandPort, .error .argHighBitsNotZero] := by decide

/-- V-I10. -/
theorem test_trace_refuses_non_events : decodeTrace 0x91 = .notAnEvent ∧ decodeTrace 0xA0 = .notAnEvent := by decide

/-- The table's POLL word through the host's question, and a word wider than a byte. -/
theorem test_decodeTableWord :
    decodeTableWord 8 0x8D = some (.poll 3 1) ∧ decodeTableWord 8 0x91 = none ∧ decodeTableWord 8 0x110 = none := by
  decide

/-! ## Assembler (R80, R81) -/

/-- `POLL 3, 01b` is 0x8D; a comment alone is no operation; `DRAIN 2` is rejected. -/
theorem test_assemble :
    assembleLine ['P', 'O', 'L', 'L', ' ', '3', ',', ' ', '0', '1', 'b'] = .word 0x8D ∧
    assembleLine [';', ' ', 'N', 'O', 'P'] = .blank ∧
    assembleLine ['D', 'R', 'A', 'I', 'N', ' ', '2'] = .rejected := by decide

/-! ## Rescale (95 §2.1) -/

/-- V-A1 to V-A7. -/
theorem test_scale_vectors :
    ([128, 254, 255, 127, 39, 2, 0] : List Sample).map (scale tc) = [128, 191, 191, 128, 84, 65, 64] := by decide

/-! ## Decoder (95 §2.2) -/

/-- V-Q2, V-Q3, V-Q4, V-Q6: the state and the sum of the results. -/
theorem test_decoder_sequences :
    decodeRun .rStart [3, 1, 0, 2, 3] = (.rStart, 1) ∧ decodeRun .rStart [3, 2, 0, 1, 3] = (.rStart, -1) ∧
    decodeRun .rStart [3, 1, 3, 1, 0, 2, 0, 2, 3] = (.rStart, 1) ∧
    decodeRun .rStart [3, 1, 0, 2, 0, 1, 3] = (.rStart, 0) := by decide

/-! ## POLL (95 §2.3) -/

/-- V-P3 and V-P4: both counters wrap, each in its own direction. -/
theorem test_poll_wraps :
    (stateOf (exec (.poll 3 3)
      { tcReset with dec0 := .rCwFinal, cnt0 := 0x7FFFFFFF, dec1 := .rCcwFinal, cnt1 := 0x80000000 })).map
        (fun s => (s.cnt0, s.cnt1)) = some (0x80000000, 0x7FFFFFFF) := by decide

/-- V-P5: transmitting holds DEC[0], and encoder 1 counts. -/
theorem test_poll_suppressed :
    (stateOf (exec (.poll 3 3) { tcReset with tx := true, dec0 := .rCwFinal, dec1 := .rCwFinal })).map
      (fun s => (s.dec0, s.cnt0, s.dec1, s.cnt1)) = some (.rCwFinal, 0, .rStart, 1) := by decide

/-! ## DRAIN (95 §2.4) -/

/-- V-D2: transmit does not suppress encoder 1. -/
theorem test_drain_function_in_transmit :
    (stateOf (exec (.drain .function) { tcReset with tx := true, cnt1 := -3 })).map
      (fun s => (s.resp, s.cnt1, s.tx)) = some (0xFFFFFFFD, 0, true) := by decide

/-- V-D6: a step in progress survives the drain. -/
theorem test_drain_keeps_decoder :
    (stateOf (exec (.drain .tuning) { tcReset with dec0 := .rCwNext, cnt0 := 2 })).map
      (fun s => (s.resp, s.dec0, s.cnt0)) = some (2, .rCwNext, 0) := by decide

/-! ## SETTX and SETLOCK (95 §2.5) -/

/-- V-T1. -/
theorem test_settx_discards :
    (stateOf (exec (.settx true) { tcReset with cnt0 := 7, cnt1 := 2 })).map (fun s => (s.tx, s.cnt0, s.cnt1)) =
      some (true, 0, 2) := by decide

/-- V-T4: encoder 0 stays suppressed by TX. -/
theorem test_setlock_leaves_tx :
    (stateOf (exec (.setlock false) { tcReset with tx := true, lock := true })).map
      (fun s => (s.lock, s.suppressed .tuning)) = some (false, true) := by decide

/-- V-T3. -/
theorem test_setlock_discards :
    (stateOf (exec (.setlock true) { tcReset with cnt0 := -4 })).map (fun s => (s.lock, s.cnt0)) = some (true, 0) := by
  decide

/-! ## TONE, START, STOP (95 §2.6) -/

/-- V-C2. -/
theorem test_tone_only_latch :
    (stateOf (exec (.tone false) (running .sustain 4 true))).map (fun s => (s.tone, s.env, s.idx)) =
      some (false, .sustain, 4) := by decide

/-- V-C3. -/
theorem test_start_succeeds :
    (fun s : State => (s.armed, s.pwmEn, s.duty, s.resp)) ({ tcReset with timerOk := some true }.start tc) =
      (true, true, 128, 1) := by decide

/-- V-C4: the failed START leaves the reset state. -/
theorem test_start_fails :
    (fun s : State => (s.armed, s.pwmEn, s.duty, s.resp)) ({ tcReset with timerOk := some false }.start tc) =
      (false, false, 128, 0) := by decide

/-- V-C6. -/
theorem test_stop_resets_envelope :
    (fun s : State => (s.armed, s.pwmEn, s.duty, s.env, s.idx, s.tone))
      ({ running .sustain 7 true with duty := 70 }.stop tc) = (false, false, 128, .idle, 0, true) := by decide

/-! ## ETICK (95 §2.7): the sample, ENV and IDX after -/

/-- V-E2, V-E4, V-E5, V-E6. -/
theorem test_etick_rising :
    ([running .idle 0 true, running .attack 40 false, running .attack 63 true, running .sustain 8 false].map
      (fun s => let t := s.etick tc; (t.duty, t.env, t.idx))) =
      [(128, .attack, 0), (168, .attack, 41), (191, .sustain, 0), (65, .sustain, 9)] := by decide

/-- V-E7, V-E8, V-E9a, V-E9b. -/
theorem test_etick_falling :
    ([running .sustain 15 true, running .sustain 15 false, running .release 0 true, running .release 63 true].map
      (fun s => let t := s.etick tc; (t.duty, t.env, t.idx))) =
      [(186, .sustain, 0), (186, .release, 0), (191, .release, 1), (128, .idle, 0)] := by decide

/-! ## NOP, RDSTAT (95 §2.8) -/

/-- V-R6. -/
theorem test_nop : (stateOf (exec .nop tcReset)).map (fun s => (s.resp, s.duty, s.ill)) = some (0, 128, false) := by
  decide

/-- V-R3 and V-R5. -/
theorem test_rdstat_status0 :
    (stateOf (exec (.rdstat .status0) { running .sustain 5 true with duty := 104 })).map State.resp =
      some 0x00680716 ∧
    (stateOf (exec (.rdstat .status0) { tcReset with ill := true, tx := true, lock := true })).map State.resp =
      some 0x00803800 := by decide

/-- V-R4. -/
theorem test_rdstat_status1 :
    (stateOf (exec (.rdstat .status1) { tcReset with dec0 := .rCwNext, dec1 := .rCcwNext })).map State.resp =
      some 0x63 := by decide

/-! ## The agents (95 §3) -/

/-- P4 step 3: an event word on the command port sets ILL and polls nothing. -/
theorem test_event_word_on_port :
    (stateOf (perform (.command 0x80 none) { tcReset with dec0 := .rCwBegin })).map (fun s => (s.ill, s.dec0, s.resp)) =
      some (true, .rCwBegin, 0) := by decide

/-- P5 step 3: 0x90 in a trace while disarmed is skipped and recorded. -/
theorem test_disarmed_trace_tick :
    (stateOf (perform (.traceWord 0x90 none) tcReset)).map (fun s => (s.record, s.samples)) =
      some ([.noEvent], []) := by decide

/-- R60 with reset: nothing else of the cycle is performed. -/
theorem test_reset_cycle_alone :
    PortCycle.arrivals ⟨false, ⟨true, true, true, true⟩, true, true, true, true, 0x11⟩ = [.resetCycle] := by decide

/-- A placed word is what the next step runs. -/
theorem test_withFetchWord_runs :
    (stateOf (step (tcReset.withFetchWord 8 0x51))).map (fun s => (s.tx, s.stimulus)) = some (true, []) := by decide

/-! ## Witnesses: for each statement with hypotheses, a case that meets all of them -/

/-- An armed state at the last sustain entry, under the machine's own configuration. -/
def atWrap : State :=
  { State.reset with armed := true, pwmEn := true, env := .sustain, idx := 15, stimulus := [.timerTick] }

theorem atWrap_inv : atWrap.Inv where
  indexInBounds := show (15 : Nat) ≤ 15 from le_refl 15
  armedIffEnabled := rfl
  disarmedAtRest := fun h => absurd (show true = false from h) (by decide)
  suppressedCountZero := fun _ => rfl
  dutyInWrap := Config.params.wf.2.1

/-- The machine's reset state, armed, on the walk at rest. -/
def atRest : State := { State.reset with armed := true, pwmEn := true }

theorem atRest_inv : atRest.Inv where
  indexInBounds := rfl
  armedIffEnabled := rfl
  disarmedAtRest := fun h => absurd (show true = false from h) (by decide)
  suppressedCountZero := fun _ => rfl
  dutyInWrap := Config.params.wf.2.1

theorem witness_ResetCycleResets : ∃ p : PortCycle, p.rstN = false ∧ p.cmdValid = true :=
  ⟨⟨false, default, false, false, false, true, 0⟩, rfl, rfl⟩

theorem witness_StepKeepsInvariants : ∃ s t, s.Inv ∧ step s = .next t := ⟨atWrap, _, atWrap_inv, rfl⟩

theorem witness_ReachableStatesMeetInvariants : Reachable (State.reset.resetBlock Config.params) :=
  .performed .resetCycle .reset rfl

theorem witness_DecodeOfEncode : (Instr.drain .function).isCommand = true := rfl

theorem witness_EncodeOfDecode :
    decodeTrace 0x8F = .operation (.poll 3 3) ∧ decodeCmd 0x71 = .ok (.rdstat .status1) := by decide

theorem witness_IllegalWordsByClause :
    opField 0xFF = 0xF ∧ opField 0x9F = 0x9 ∧ (opField 0x41 = 0x4 ∧ argField 0x41 ≠ 0) ∧
      (opField 0x72 = 0x7 ∧ (argField 0x72).extractLsb 3 1 ≠ 0) := by decide

theorem witness_TraceReaderRefusals :
    perform (.traceWord 0x91 none) tcReset = .refused (.notATraceWord 0x91) ∧
    perform (.traceWord 0xFF none) tcReset = .refused (.notATraceWord 0xFF) ∧
    0x80 ≤ (0x8F : Byte).toNat ∧ (0x8F : Byte).toNat ≤ 0x8F := ⟨rfl, rfl, by decide, by decide⟩

theorem witness_StepRunsDecodedOperation :
    (∃ s : State, s.stimulus = [.traceWord 0x90 none] ∧ decodeTrace 0x90 = .operation .etick) ∧
    (∃ s : State, s.stimulus = [.command 0x30 (some true)] ∧ decodeCmd 0x30 = .ok .start) ∧
    (∃ (s : State) (l : PhaseLines), s.stimulus = [.pollStrobe l]) ∧
    (∃ s : State, s.stimulus = [.timerTick] ∧ s.armed = true) ∧ (∃ s : State, s.stimulus = []) ∧
    (∃ s : State, s.stimulus = [.resetCycle, .traceWord 0x91 none]) :=
  ⟨⟨{ tcReset with stimulus := [.traceWord 0x90 none] }, rfl, by decide⟩,
    ⟨{ tcReset with stimulus := [.command 0x30 (some true)] }, rfl, by decide⟩,
    ⟨{ tcReset with stimulus := [.pollStrobe default] }, default, rfl⟩, ⟨atWrap, rfl, rfl⟩, ⟨tcReset, rfl⟩,
    ⟨{ tcReset with stimulus := [.resetCycle, .traceWord 0x91 none] }, rfl⟩⟩

theorem witness_EveryOperationCompletes : Instr.start.isCommand = true ∧ Instr.etick.isCommand = false := ⟨rfl, rfl⟩

theorem witness_ResponsePerCommand :
    (∃ t, exec (.drain .tuning) { tcReset with cnt0 := 0x80000000 } = .next t ∧ t.resp = 0x80000000) ∧
    (∃ t, exec .start { tcReset with armed := true } = .next t ∧ t.resp = 1) ∧
    (∃ t, exec (.rdstat .status0) tcReset = .next t) ∧ ∃ t, exec (.tone true) tcReset = .next t :=
  ⟨⟨_, rfl, by decide⟩, ⟨_, rfl, by decide⟩, ⟨_, rfl⟩, ⟨_, rfl⟩⟩

theorem witness_IllegalCommandSetsIll :
    decodeCmd 0xA0 = .error .reservedOp ∧ decodeCmd 0x0F = .error .argNotZero ∧
    decodeCmd 0x80 = .error .eventOnCommandPort ∧ decodeCmd 0x1E = .error .argHighBitsNotZero ∧
    decodeTrace 0x01 = .illegal .argNotZero ∧ decodeTrace 0x7F = .illegal .argHighBitsNotZero := by decide

theorem witness_IllStickyUntilReset :
    (∃ t, perform .resetCycle { tcReset with ill := true } = .next t ∧ t.ill = false) ∧
    (∃ t, exec (.rdstat .status0) { tcReset with ill := true } = .next t) ∧
    (∃ t, perform (.command 0xA0 none) tcReset = .next t ∧ t.ill = true) ∧
    ∃ t, perform (.traceWord 0x41 none) tcReset = .next t ∧ t.ill = true :=
  ⟨⟨_, rfl, rfl⟩, ⟨_, rfl⟩, ⟨_, rfl, rfl⟩, ⟨_, rfl, rfl⟩⟩

theorem witness_OneErrorPerCommandWord :
    (∃ t, perform (.command 0x30 (some false)) tcReset = .next t ∧
      t.record = [.response 0 (some .timerUnavailable)]) ∧
    ∃ t, perform (.command 0x31 none) tcReset = .next t ∧ t.record = [.response 0 (some .illegalCommand)] :=
  ⟨⟨_, rfl, rfl⟩, ⟨_, rfl, rfl⟩⟩

theorem witness_SameCycleOrder :
    ∃ p q : PortCycle, (p.rstN = true ∧ p.cmdValid = true ∧ p.cmd = encode (.drain .tuning) ∧ p.pollStrobe = true) ∧
      (q.rstN = true ∧ q.cmdValid = true ∧ q.cmd = encode (.drain .function) ∧ q.pollStrobe = true) ∧
      tcReset.suppressed .tuning = false ∧ { tcReset with tx := true }.suppressed .function = false :=
  ⟨⟨true, default, true, true, true, true, 0x10⟩, ⟨true, default, true, false, false, true, 0x11⟩,
    by decide, by decide, rfl, rfl⟩

/-- A STOP and a TONE 1 in the cycle of a tick, the timer armed. -/
theorem witness_SameCycleOrder_tick :
    ∃ p q : PortCycle, (p.rstN = true ∧ p.cmdValid = true ∧ p.cmd = encode .stop ∧ p.timerTick = true) ∧
      (q.rstN = true ∧ q.cmdValid = true ∧ q.cmd = encode (.tone true) ∧ q.timerTick = true) ∧
      atRest.armed = true ∧ atRest.env = .idle :=
  ⟨⟨true, default, false, true, true, true, 0x40⟩, ⟨true, default, true, true, false, true, 0x21⟩,
    by decide, by decide, rfl, rfl⟩

theorem witness_PollAndTickCommute :
    ∃ t u, exec (.poll 3 3) atWrap = .next t ∧ exec .etick atWrap = .next u := ⟨_, _, rfl, rfl⟩

theorem witness_DebounceNeedsFullSequence :
    (decodeRun .rStart [1, 0, 2]).1 = .rCwFinal ∧ (decodeRun .rStart [2, 0, 1]).1 = .rCcwFinal ∧
    (decoder .rCwFinal 3).2 ≠ .none ∧ grayNeighbours 1 3 = true := by decide

theorem witness_CountersWrap :
    let s := { tcReset with dec0 := .rCwFinal, cnt0 := 0x7FFFFFFF, dec1 := .rCcwFinal, cnt1 := 0x80000000 }
    (∃ t, exec (.poll 3 3) s = .next t) ∧ s.suppressed .tuning = false ∧ s.suppressed .function = false ∧
    (decoder (s.dec .tuning) (pollPhase 3 3 .tuning)).2 = .cw ∧
    (decoder (s.dec .function) (pollPhase 3 3 .function)).2 = .ccw ∧
    (s.cnt .tuning).toInt = 2 ^ 31 - 1 ∧ (s.cnt .function).toInt = -2 ^ 31 :=
  ⟨⟨_, rfl⟩, by decide, by decide, by decide, by decide, by decide, by decide⟩

theorem witness_DrainReadsAndResets :
    ({ tcReset with lock := true }.tx || { tcReset with lock := true }.lock) = true ∧
    (tcReset.tx || tcReset.lock) = false ∧ (opField 0x1E = 0x1 ∧ (argField 0x1E).extractLsb 3 1 ≠ 0) := by decide

theorem witness_SettxWritesTx : opField 0x52 = 0x5 ∧ (argField 0x52).extractLsb 3 1 ≠ 0 := by decide

theorem witness_SetlockWritesLock : opField 0x6F = 0x6 ∧ (argField 0x6F).extractLsb 3 1 ≠ 0 := by decide

/-- A drain of one pending count: no reset, the latch inputs quiet, and no wrap. -/
theorem witness_DrainConservation :
    let l := [Arrival.command 0x10 none]
    let s := { tcReset with cnt0 := 1 }
    .resetCycle ∉ l ∧ (∀ m ∈ trail l s, m.quiet) ∧ ∀ m ∈ trail l s, m.noWrap .tuning := by
  refine ⟨by decide, ?_, ?_⟩ <;> intro m hm
  · rw [List.mem_singleton.mp hm]; unfold Moment.quiet; decide
  · rw [List.mem_singleton.mp hm]; unfold Moment.noWrap; decide

/-- A transmitting radio, one POLL that completes a step of the function encoder. -/
theorem witness_TransmitSuppressesTuningOnly :
    let l := [Arrival.traceWord 0x8F none]
    let s := { tcReset with tx := true, dec1 := .rCwFinal }
    s.tx = true ∧ s.cnt1 = 0 ∧
      ∀ m ∈ trail l s, m.after.tx = true ∧ operationOf m.arrival ≠ some (.drain .function) := by
  refine ⟨rfl, rfl, ?_⟩
  intro m hm
  rw [List.mem_singleton.mp hm]
  decide

/-- The same while suppressed by LOCK, and a step held at R_CW_FINAL that the first POLL after completes. -/
theorem witness_SuppressionHoldsDecoder :
    (let l := [Arrival.traceWord 0x8F none]
     let s := { tcReset with lock := true, dec0 := .rCwFinal }
     s.cnt0 = 0 ∧ ∀ m ∈ trail l s, m.before.suppressed .tuning = true ∧ m.arrival ≠ .resetCycle) ∧
    ∃ t, exec (.poll 3 3) { tcReset with dec0 := .rCwFinal } = .next t ∧
      ({ tcReset with dec0 := .rCwFinal } : State).suppressed .tuning = false := by
  refine ⟨⟨rfl, ?_⟩, _, rfl, rfl⟩
  intro m hm
  rw [List.mem_singleton.mp hm]
  decide

theorem witness_RepeatedCommands :
    (∃ t u, exec (.drain .tuning) { tcReset with cnt0 := 9 } = .next t ∧
      (∀ a ∈ [Arrival.command 0x11 none], ∀ p1 p0, operationOf a ≠ some (.poll p1 p0)) ∧
      exec (.drain .tuning) (runAll [.command 0x11 none] t) = .next u) ∧
    (∃ t u, exec (.rdstat .status1) tcReset = .next t ∧ exec (.rdstat .status1) t = .next u) ∧
    (∃ t, exec .nop tcReset = .next t) ∧ (∃ t u, exec .stop tcReset = .next t ∧ exec .stop t = .next u) ∧
    ∃ t u, exec .start { tcReset with timerOk := some true } = .next t ∧ t.resp = 1 ∧ exec .start t = .next u :=
  ⟨⟨_, _, rfl, by decide, rfl⟩, ⟨_, _, rfl, rfl⟩, ⟨_, rfl⟩, ⟨_, _, rfl, rfl⟩, ⟨_, _, rfl, rfl, rfl⟩⟩

theorem witness_EncoderElementWriters :
    (∃ t, exec (.settx true) { tcReset with cnt0 := 7 } = .next t ∧ t.tx ≠ tcReset.tx ∧ t.cnt0 ≠ 7) ∧
    (∃ t, exec (.setlock true) tcReset = .next t ∧ t.lock ≠ tcReset.lock) ∧
    (∃ t, exec (.poll 1 1) tcReset = .next t ∧ t.dec0 ≠ tcReset.dec0) ∧
    ∃ t, exec (.drain .function) { tcReset with cnt1 := 9 } = .next t ∧ t.cnt1 ≠ 9 :=
  ⟨⟨_, rfl, by decide, by decide⟩, ⟨_, rfl, by decide⟩, ⟨_, rfl, by decide⟩, ⟨_, rfl, by decide⟩⟩

theorem witness_ScaleProperties :
    tc.mid ≤ 254 ∧ (39 : Sample) ≤ tc.mid ∧ (255 : Sample) ≤ tc.pwmWrap ∧ (2 : Sample) ≤ 39 ∧ (127 : Sample) < tc.mid ∧
      (default : Params).atten = 1 := by decide

theorem witness_EtickWalksTables :
    (atRest.armed = true ∧ atRest.env = .idle) ∧ (atWrap.armed = true ∧ atWrap.env = .sustain ∧ atWrap.idx.toNat < 16) ∧
    (∃ s : State, s.armed = true ∧ s.env = .attack ∧ s.idx = 63) ∧
    ∃ s : State, s.armed = true ∧ s.env = .release ∧ s.idx = 63 :=
  ⟨⟨rfl, rfl⟩, ⟨rfl, rfl, by decide⟩, ⟨running .attack 63 true, rfl, rfl, rfl⟩,
    ⟨running .release 63 true, rfl, rfl, rfl⟩⟩

theorem witness_DisarmedTickSkipped : tcReset.armed = false := rfl

theorem witness_LatchReadAtTwoPoints :
    ¬ (running .sustain 14 true).SamplesLatch ∧ ∃ t, exec .etick (running .sustain 14 true) = .next t :=
  ⟨by unfold State.SamplesLatch; decide, _, rfl⟩

/-- The latch set for ticks 0 to 80, first found clear at the end of the second cycle: K = 2 (V-E11). -/
theorem witness_KeyedSequence :
    let f : Nat → Bool := fun n => decide (n ≤ 80)
    atRest.armed = true ∧ atRest.env = .idle ∧ 1 ≤ 2 ∧ f 0 = true ∧
      (∀ j, 1 ≤ j → j < 2 → f (64 + 16 * j) = true) ∧ f (64 + 16 * 2) = false := by
  refine ⟨rfl, rfl, by decide, by decide, ?_, by decide⟩
  intro j _ h
  simp only [decide_eq_true_eq]
  omega

theorem witness_RunsFollowKeyedRun :
    atRest.armed = true ∧
      (∀ a ∈ [Arrival.traceWord 0x21 none, .timerTick, .pollStrobe default, .command 0xFF none, .timerTick],
        KeepsWalking a) ∧
      (ticksOf (trail [Arrival.traceWord 0x21 none, .timerTick, .pollStrobe default, .timerTick] atRest)).length = 2 := by
  refine ⟨rfl, ?_, rfl⟩
  unfold KeepsWalking
  decide

theorem witness_ConsecutiveSamplesAreNeighbours :
    atRest.Inv ∧ atRest.DutyOnWalk Config.params ∧
      ∀ a ∈ [Arrival.timerTick, Arrival.traceWord 0x21 none], KeepsWalking a := by
  refine ⟨atRest_inv, ⟨rfl, .inl rfl⟩, ?_⟩
  unfold KeepsWalking
  decide

/-- TC is smooth with the bound 24 (95 §0), and 152 to 128 is one of its pairs. -/
theorem witness_SmoothTablesBoundJumps :
    Smooth tc 24 ∧ InTableStepsAtMost tc 24 ∧ Neighbours tc 152 128 := by
  refine ⟨by unfold Smooth; decide, ⟨by decide, by decide⟩, ?_⟩
  exact Neighbours.hold (c := tc) 3 4 rfl

theorem witness_KeyUpLatency :
    let s := running .sustain 15 false
    let t := running .attack 0 false
    (s.armed = true ∧ s.env = .sustain ∧ s.idx.toNat ≤ 15 ∧ s.idx.toNat + 1 ≤ 16) ∧
      (t.armed = true ∧ t.env = .attack ∧ t.idx.toNat + 80 ≤ 64 + 16) := by decide

theorem witness_KeyDownLatency :
    (atRest.armed = true ∧ atRest.env = .idle) ∧
      (let s := running .release 0 true
       s.armed = true ∧ s.env = .release ∧ s.idx.toNat + 65 ≤ 65) := ⟨⟨rfl, rfl⟩, by decide⟩

theorem witness_ToneWritesLatch : opField 0x22 = 0x2 ∧ (argField 0x22).extractLsb 3 1 ≠ 0 := by decide

theorem witness_StartArmsOnSuccess :
    ((running .attack 9 true).armed = true) ∧
    ({ tcReset with timerOk := some true }.armed = false ∧ { tcReset with timerOk := some true }.timerAnswer = true) ∧
    ({ tcReset with timerOk := some false }.armed = false ∧
      { tcReset with timerOk := some false }.timerAnswer = false) ∧
    (opField 0x31 = 0x3 ∧ argField 0x31 ≠ 0) := by decide

theorem witness_DrawUsedOnce :
    (∃ s : State, s.armed = false ∧ s.timerOk = some true) ∧ (tcReset.armed = false ∧ tcReset.timerOk = none) ∧
    (∃ t, exec .start { tcReset with timerOk := some true } = .next t ∧ t.timerOk ≠ some true) ∧
    ∃ t, exec .start tcReset = .next t :=
  ⟨⟨{ tcReset with timerOk := some true }, rfl, rfl⟩, ⟨rfl, rfl⟩, ⟨_, rfl, by decide⟩, ⟨_, rfl⟩⟩

theorem witness_TimerUnavailableLeavesBlock :
    { tcReset with timerOk := some false }.armed = false ∧
      { tcReset with timerOk := some false }.timerAnswer = false := by decide

theorem witness_StopResetsEnvelope : opField 0x4F = 0x4 ∧ argField 0x4F ≠ 0 := by decide

/-- A STOP that moves DUTY back to MID from the value above it. -/
theorem stop_moves_duty (s : State) (h : s.duty = Config.params.mid + 1) :
    ∃ t, exec .stop s = .next t ∧ t.duty ≠ s.duty := by
  refine ⟨_, rfl, fun e => ?_⟩
  have : Config.params.mid = Config.params.mid + 1 := by rw [← h]; exact e
  bv_omega

theorem witness_ArmedDutyWriters :
    (∃ s t, s.armed = true ∧ exec .stop s = .next t ∧ t.duty ≠ s.duty) ∧ ∃ t, exec (.tone true) atWrap = .next t :=
  ⟨⟨{ running .sustain 7 true with duty := Config.params.mid + 1 },
    (stop_moves_duty _ rfl).imp fun _ h => ⟨rfl, h⟩⟩, _, rfl⟩

theorem witness_EnvelopeElementWriters :
    (∃ t, exec (.tone true) tcReset = .next t ∧ t.tone ≠ tcReset.tone) ∧
    (∃ t, exec .etick atWrap = .next t ∧ t.env ≠ atWrap.env ∧ t.samples ≠ atWrap.samples) ∧
    (∃ t, exec .stop atWrap = .next t ∧ t.armed ≠ atWrap.armed) ∧
    ∃ s t, exec .stop s = .next t ∧ t.duty ≠ s.duty :=
  ⟨⟨_, rfl, by decide⟩, ⟨_, rfl, by decide, List.cons_ne_nil _ _⟩, ⟨_, rfl, by decide⟩,
    ⟨{ atWrap with duty := Config.params.mid + 1 }, stop_moves_duty _ rfl⟩⟩

theorem witness_NopAnswersZero : 0x01 ≤ (0x0F : Byte).toNat ∧ (0x0F : Byte).toNat ≤ 0x0F := by decide

theorem witness_RdstatAnswersStatus : opField 0x7E = 0x7 ∧ (argField 0x7E).extractLsb 3 1 ≠ 0 := by decide

end Sys2Proof.Tests
end

/-! PROOF. What one operation and one arrival can do, said once: the next state of every operation as a function, and
the cases of an arrival. -/

namespace Sys2Proof.Machine

/-! ## The next state of an operation -/

/-- The state an operation leads to. -/
def effect (i : Instr) (s : State) : State :=
  match i with
  | .nop => s.respond 0
  | .drain e => s.drain e
  | .tone v => { s with tone := v }.respond 0
  | .start => s.start Config.params
  | .stop => s.stop Config.params
  | .settx v => ({ s with tx := v }.discardIf v).respond 0
  | .setlock v => ({ s with lock := v }.discardIf v).respond 0
  | .rdstat w => s.respond (s.statusWord w)
  | .poll p1 p0 => (s.pollEncoder .tuning p0).pollEncoder .function p1
  | .etick => s.etick Config.params

/-- Every operation completes, in every state (R202). -/
theorem exec_eq_next (i : Instr) (s : State) : exec i s = .next (effect i s) := by
  cases i <;> rfl

theorem exec_eq_next_iff {i : Instr} {s t : State} : exec i s = .next t ↔ t = effect i s := by
  rw [exec_eq_next, Host.Outcome.next.injEq, eq_comm]

/-! ## The cases of an arrival -/

theorem performCommand_ok {w : Byte} {i : Instr} (h : decodeCmd w = .ok i) (s : State) :
    performCommand w s = exec i s := by simp [performCommand, h]

theorem performCommand_error {w : Byte} {r : IllegalWord} (h : decodeCmd w = .error r) (s : State) :
    performCommand w s = .next s.illegalCommand := by simp [performCommand, h]

theorem performTraceWord_operation {w : Byte} {i : Instr} (h : decodeTrace w = .operation i) (s : State) :
    performTraceWord w s = exec i s := by simp [performTraceWord, h]

theorem performTraceWord_illegal {w : Byte} {r : IllegalWord} (h : decodeTrace w = .illegal r) (s : State) :
    performTraceWord w s = .next s.illegalCommand := by simp [performTraceWord, h]

theorem performTraceWord_notAnEvent {w : Byte} (h : decodeTrace w = .notAnEvent) (s : State) :
    performTraceWord w s = .refused (.notATraceWord w) := by simp [performTraceWord, h]

/-- What an arrival can do: perform its operation, raise IllegalCommand, nothing (a timer pulse while disarmed), or
reset the block. -/
theorem perform_next_cases {a : Arrival} {s t : State} (h : perform a s = .next t) :
    (∃ i ok, operationOf a = some i ∧ t = effect i { s with timerOk := ok }) ∨
    (∃ ok, operationOf a = none ∧ t = { s with timerOk := ok }.illegalCommand) ∨
    (a = .timerTick ∧ s.armed = false ∧ t = s) ∨
    (a = .resetCycle ∧ t = s.resetBlock Config.params) := by
  cases a with
  | command w ok =>
    cases hw : decodeCmd w with
    | ok i =>
      refine .inl ⟨i, ok, by simp [operationOf, hw], exec_eq_next_iff.mp ?_⟩
      rw [← performCommand_ok hw]; exact h
    | error r =>
      refine .inr (.inl ⟨ok, by simp [operationOf, hw], ?_⟩)
      simpa [perform, performCommand_error hw, eq_comm] using h
  | pollStrobe l => exact .inl ⟨_, s.timerOk, rfl, exec_eq_next_iff.mp h⟩
  | timerTick =>
    rw [perform] at h
    split at h
    · exact .inl ⟨.etick, s.timerOk, rfl, exec_eq_next_iff.mp h⟩
    · next hs => exact .inr (.inr (.inl ⟨rfl, Bool.eq_false_of_not_eq_true hs, (Host.Outcome.next.inj h).symm⟩))
  | traceWord w ok =>
    cases hw : decodeTrace w with
    | operation i =>
      refine .inl ⟨i, ok, by simp [operationOf, hw], exec_eq_next_iff.mp ?_⟩
      rw [← performTraceWord_operation hw]; exact h
    | illegal r =>
      refine .inr (.inl ⟨ok, by simp [operationOf, hw], ?_⟩)
      simpa [perform, performTraceWord_illegal hw, eq_comm] using h
    | notAnEvent => simp [perform, performTraceWord_notAnEvent hw] at h
  | resetCycle => exact .inr (.inr (.inr ⟨rfl, by simpa [perform, eq_comm] using h⟩))

end Sys2Proof.Machine

/-! PROOF. The invariants INV2 to INV6 (R38): every operation keeps them, so every arrival does. -/

namespace Sys2Proof

/-! ## The clauses of WF (R14) -/

theorem Params.one_le_atten (c : Params) : 1 ≤ c.atten := c.wf.1

theorem Params.mid_le_wrap (c : Params) : c.mid ≤ c.pwmWrap := c.wf.2.1

theorem Params.attackTable_le_wrap (c : Params) (i : Fin 64) : c.attackTable[i] ≤ c.pwmWrap := c.wf.2.2.1 i

theorem Params.sustainTable_le_wrap (c : Params) (i : Fin 16) : c.sustainTable[i] ≤ c.pwmWrap := c.wf.2.2.2 i

end Sys2Proof

namespace Sys2Proof.Machine

/-! ## The samples stay within the wrap count (R131, R132) -/

/-- Division toward zero by a positive number leads to no further than the dividend. -/
theorem tdiv_between_zero_self {a : Int} (ha : 1 ≤ a) (d : Int) : min 0 d ≤ d.tdiv a ∧ d.tdiv a ≤ max 0 d := by
  have ha0 : 0 ≤ a := by omega
  rcases le_total 0 d with hd | hd
  · have hnonneg := Int.tdiv_nonneg hd ha0
    have hle := Int.tdiv_le_self a hd
    omega
  · have hneg : 0 ≤ -d := by omega
    have hnonneg := Int.tdiv_nonneg hneg ha0
    have hle := Int.tdiv_le_self a hneg
    rw [Int.neg_tdiv] at hnonneg hle
    omega

/-- The quotient of a rescale lies between 0 and the difference it divides, ATTEN being positive by WF (R14, R130). -/
theorem scale_quotient_between (c : Params) (raw : Sample) :
    min 0 ((raw.toNat : Int) - c.mid.toNat) ≤ ((raw.toNat : Int) - c.mid.toNat).tdiv c.atten ∧
      ((raw.toNat : Int) - c.mid.toNat).tdiv c.atten ≤ max 0 ((raw.toNat : Int) - c.mid.toNat) :=
  tdiv_between_zero_self (Int.ofNat_le.mpr c.one_le_atten) _

/-- A rescale is exact: MID plus the quotient lies within the 16 bits (R130). -/
theorem scale_toNat (c : Params) (raw : Sample) :
    ((scale c raw).toNat : Int) = ((raw.toNat : Int) - c.mid.toNat).tdiv c.atten + c.mid.toNat := by
  have hq := scale_quotient_between c raw
  have hraw := raw.isLt
  have hmid := c.mid.isLt
  rw [scale, BitVec.toNat_ofInt, Int.toNat_of_nonneg (by omega), Int.emod_eq_of_lt (by omega) (by omega)]

/-- A rescaled sample lies between MID and the raw one (R131). -/
theorem scale_toNat_between (c : Params) (raw : Sample) :
    min raw.toNat c.mid.toNat ≤ (scale c raw).toNat ∧ (scale c raw).toNat ≤ max raw.toNat c.mid.toNat := by
  have hq := scale_quotient_between c raw
  have hs := scale_toNat c raw
  omega

theorem scale_le_wrap (c : Params) {raw : Sample} (h : raw ≤ c.pwmWrap) : scale c raw ≤ c.pwmWrap := by
  have hmid := c.mid_le_wrap
  have hle := (scale_toNat_between c raw).2
  bv_omega

theorem romA_le_wrap (c : Params) (i : BitVec 6) : romA c i ≤ c.pwmWrap := c.attackTable_le_wrap ⟨i.toNat, i.isLt⟩

theorem romS_le_wrap (c : Params) {i : BitVec 6} (h : i.toNat ≤ 15) : romS c i ≤ c.pwmWrap := by
  have hi : i.toNat < 16 := Nat.lt_succ_of_le h
  rw [romS, dif_pos hi]
  exact c.sustainTable_le_wrap ⟨i.toNat, hi⟩

/-- The sample of a tick is within the wrap count wherever the index is within the table (INV2). -/
theorem tickSample_le_wrap (c : Params) {s : State} (h : s.IndexInBounds) :
    tickSample c s.env s.idx ≤ c.pwmWrap := by
  unfold State.IndexInBounds at h
  cases he : s.env with
  | idle => exact c.mid_le_wrap
  | attack => exact scale_le_wrap c (romA_le_wrap c _)
  | sustain => exact scale_le_wrap c (romS_le_wrap c (by simpa [he] using h))
  | release => exact scale_le_wrap c (romA_le_wrap c _)

/-! ## Each operation keeps the invariants -/

variable {s : State}

/-- The latch, ILL, SAMPLES, the response port, the record and the environment's inputs are outside the invariants. -/
theorem State.Inv.setUnread (h : s.Inv) {tone ill respValid : Bool} {samples : List Sample} {resp : Word}
    {record : List Entry} {ok : Option Bool} {stimulus : List Arrival} {draws : Nat} :
    { s with tone := tone, ill := ill, samples := samples, respValid := respValid, resp := resp, record := record,
             timerOk := ok, stimulus := stimulus, draws := draws }.Inv := by
  obtain ⟨hidx, hpwm, hrest, hcnt, hduty⟩ := h
  exact ⟨hidx, hpwm, hrest, hcnt, hduty⟩

theorem State.Inv.respond (h : s.Inv) (r : Word) : (s.respond r).Inv := h.setUnread

/-- Any change of the encoder half keeps the invariants if it keeps INV5. -/
theorem State.Inv.setEncoderHalf (h : s.Inv) {d0 d1 : DecState} {c0 c1 : Word} {tx lock : Bool}
    (hcnt : tx = true ∨ lock = true → c0 = 0) :
    { s with dec0 := d0, dec1 := d1, cnt0 := c0, cnt1 := c1, tx := tx, lock := lock }.Inv := by
  obtain ⟨hidx, hpwm, hrest, -, hduty⟩ := h
  exact ⟨hidx, hpwm, hrest, hcnt, hduty⟩

theorem State.Inv.setCnt_zero (h : s.Inv) (e : Encoder) : (s.setCnt e 0).Inv := by
  cases e with
  | tuning => exact h.setEncoderHalf fun _ => rfl
  | function => exact h.setEncoderHalf h.suppressedCountZero

theorem State.Inv.drain (h : s.Inv) (e : Encoder) : (s.drain e).Inv := by
  unfold State.drain
  split
  · exact (h.setCnt_zero .tuning).respond 0
  · exact (h.setCnt_zero e).respond _

/-- SETTX 1 discards the count that INV5 forbids; SETTX 0 leaves what LOCK alone suppresses. -/
theorem State.Inv.settx (h : s.Inv) (v : Bool) : ({ s with tx := v }.discardIf v).Inv := by
  cases v with
  | true => exact h.setEncoderHalf fun _ => rfl
  | false => exact h.setEncoderHalf fun hs => h.suppressedCountZero (.inr (hs.resolve_left Bool.false_ne_true))

theorem State.Inv.setlock (h : s.Inv) (v : Bool) : ({ s with lock := v }.discardIf v).Inv := by
  cases v with
  | true => exact h.setEncoderHalf fun _ => rfl
  | false => exact h.setEncoderHalf fun hs => h.suppressedCountZero (.inl (hs.resolve_right Bool.false_ne_true))

theorem State.Inv.pollEncoder (h : s.Inv) (e : Encoder) (p : Phase) : (s.pollEncoder e p).Inv := by
  cases e with
  | tuning =>
    rw [pollEncoder_tuning]
    split
    · exact h.setEncoderHalf fun _ => rfl
    · next hs => exact h.setEncoderHalf fun hs' => absurd (by simpa using hs') hs
  | function =>
    rw [pollEncoder_function]
    exact h.setEncoderHalf h.suppressedCountZero

/-- A tick leaves the index within the table of the state it leads to (INV2). -/
theorem State.IndexInBounds.tick (c : Params) (h : s.IndexInBounds) : (s.tick c).IndexInBounds := by
  unfold State.IndexInBounds at h ⊢
  rw [tick_eq]
  rcases nextEnvelope_cases s.tone s.env s.idx with
    ⟨he, -, hn⟩ | ⟨he, -, hn⟩ | ⟨he, hi, hn⟩ | ⟨he, hi, hn⟩ | ⟨he, hi, hn⟩ | ⟨he, hi, -, hn⟩ | ⟨he, hi, -, hn⟩ |
    ⟨he, hi, hn⟩ | ⟨he, hi, hn⟩ <;>
    rw [he] at h <;> simp only [hn]
  · exact h
  · exact Nat.zero_le _
  · exact Nat.le_of_lt_succ (s.idx + 1).isLt
  · exact Nat.zero_le _
  · bv_omega
  · exact Nat.zero_le _
  · exact Nat.zero_le _
  · exact Nat.le_of_lt_succ (s.idx + 1).isLt

theorem State.Inv.etick (h : s.Inv) : (s.etick Config.params).Inv := by
  cases ha : s.armed with
  | true =>
    rw [etick_armed s _ ha]
    exact ⟨h.indexInBounds.tick _, h.armedIffEnabled, (fun hd => nomatch ha.symm.trans hd),
      h.suppressedCountZero, tickSample_le_wrap _ h.indexInBounds⟩
  | false =>
    rw [etick_disarmed s _ ha]
    exact h.setUnread

theorem State.Inv.start (h : s.Inv) : (s.start Config.params).Inv := by
  rw [start_eq]
  split
  · exact h.setUnread
  · split
    · exact ⟨h.indexInBounds, rfl, (fun hd => nomatch hd), h.suppressedCountZero, Config.params.mid_le_wrap⟩
    · exact h.setUnread

theorem State.Inv.stop (h : s.Inv) : (s.stop Config.params).Inv :=
  ⟨rfl, rfl, fun _ => ⟨rfl, rfl, rfl⟩, h.suppressedCountZero, Config.params.mid_le_wrap⟩

theorem resetBlock_inv (s : State) : (s.resetBlock Config.params).Inv :=
  ⟨rfl, rfl, fun _ => ⟨rfl, rfl, rfl⟩, fun _ => rfl, Config.params.mid_le_wrap⟩

theorem reset_inv : State.reset.Inv := resetBlock_inv State.reset

/-- Every operation keeps INV2 to INV6 (R38). -/
theorem effect_keeps_inv (i : Instr) (h : s.Inv) : (effect i s).Inv := by
  cases i with
  | nop => exact h.respond 0
  | drain e => exact h.drain e
  | tone v => exact h.setUnread
  | start => exact h.start
  | stop => exact h.stop
  | settx v => exact (h.settx v).respond 0
  | setlock v => exact (h.setlock v).respond 0
  | rdstat w => exact h.respond _
  | poll p1 p0 => exact (h.pollEncoder .tuning p0).pollEncoder .function p1
  | etick => exact h.etick

/-- Every arrival keeps INV2 to INV6 (R38). -/
theorem perform_keeps_inv {a : Arrival} {t : State} (h : s.Inv) (hp : perform a s = .next t) : t.Inv := by
  obtain ⟨i, ok, -, rfl⟩ | ⟨ok, -, rfl⟩ | ⟨-, -, rfl⟩ | ⟨-, rfl⟩ := perform_next_cases hp
  · exact effect_keeps_inv i h.setUnread
  · exact h.setUnread
  · exact h
  · exact resetBlock_inv s

/-- The numbers of the decoder states end at 6 (INV1, R38). -/
theorem DecState.bits_le_six (d : DecState) : d.bits.toNat ≤ 6 := by cases d <;> decide

theorem Reachable.inv (h : Reachable s) : s.Inv := by
  induction h with
  | reset => exact reset_inv
  | performed a _ hp ih => exact perform_keeps_inv ih hp
  | environment l ok n _ ih => exact ih.setUnread

/-- Settles O5: the invariants hold at reset, every arrival keeps them, and the environment's inputs are outside them. -/
theorem reachableStatesMeetInvariants : Obligations.ReachableStatesMeetInvariants := by
  unfold Obligations.ReachableStatesMeetInvariants
  exact fun s h => ⟨h.inv, fun e => (s.dec e).bits_le_six⟩

end Sys2Proof.Machine

/-! PROOF. The status words, field by field (R35, R36), the suppression predicate (R39), and the outputs (R40). -/

namespace Sys2Proof.Machine

/-! ## A field of a status word -/

/-- A field shows its bits from its position on, and 0 elsewhere. -/
theorem getLsbD_fieldAt {n : Nat} (v : BitVec n) (pos i : Nat) :
    (fieldAt v pos).getLsbD i = (decide (i < 32) && decide (pos ≤ i) && v.getLsbD (i - pos)) := by
  rw [fieldAt, BitVec.getLsbD_shiftLeft, BitVec.getLsbD_setWidth]
  by_cases hi : i < 32
  · have hsub : i - pos < 32 := by omega
    by_cases hp : pos ≤ i <;> simp [hi, hsub, hp]
  · simp [hi]

theorem getLsbD_fieldAt_ofBool (b : Bool) {pos : Nat} (h : pos < 32) :
    (fieldAt (BitVec.ofBool b) pos).getLsbD pos = b := by
  rw [getLsbD_fieldAt]
  simp [h]

theorem getLsbD_fieldAt_outside {n : Nat} (v : BitVec n) {pos i : Nat} (h : i < pos ∨ pos + n ≤ i) :
    (fieldAt v pos).getLsbD i = false := by
  rw [getLsbD_fieldAt]
  obtain h | h := h
  · simp [Nat.not_le.mpr h]
  · simp [BitVec.getLsbD_of_ge v (i - pos) (by omega)]

theorem extractLsb'_fieldAt_same {n : Nat} (v : BitVec n) {pos : Nat} (h : pos + n ≤ 32) :
    (fieldAt v pos).extractLsb' pos n = v := by
  apply BitVec.eq_of_getLsbD_eq
  intro i hi
  have hlt : pos + i < 32 := by omega
  rw [BitVec.getLsbD_extractLsb', getLsbD_fieldAt]
  simp [hi, hlt]

theorem extractLsb'_fieldAt_outside {n : Nat} (v : BitVec n) {pos start len : Nat}
    (h : start + len ≤ pos ∨ pos + n ≤ start) : (fieldAt v pos).extractLsb' start len = 0#len := by
  apply BitVec.eq_of_getLsbD_eq
  intro i hi
  rw [BitVec.getLsbD_extractLsb', getLsbD_fieldAt_outside v (by omega)]
  simp

/-! ## The status words -/

/-- Settles O56: the fields do not overlap, so each reads back its own value and bits 15:14 lie outside them all. -/
theorem statusZeroLayout : Obligations.StatusZeroLayout := by
  unfold Obligations.StatusZeroLayout State.status0
  intro s
  refine ⟨?_, ?_, ?_, ?_, ?_, ?_, ?_, ?_, ?_, ?_, rfl, rfl, rfl, rfl⟩ <;>
    simp (disch := omega) only [BitVec.extractLsb'_or, BitVec.getLsbD_or, extractLsb'_fieldAt_same,
      extractLsb'_fieldAt_outside, getLsbD_fieldAt_ofBool, getLsbD_fieldAt_outside, BitVec.or_zero, BitVec.zero_or,
      Bool.or_false, Bool.false_or, BitVec.ofNat_eq_ofNat]

/-- Settles O57: the two fields do not overlap, and every other bit lies outside both. -/
theorem statusOneLayout : Obligations.StatusOneLayout := by
  unfold Obligations.StatusOneLayout State.status1
  intro s
  refine ⟨?_, ?_, ?_, ?_⟩ <;>
    simp (disch := omega) only [BitVec.extractLsb'_or, BitVec.getLsbD_or, extractLsb'_fieldAt_same,
      extractLsb'_fieldAt_outside, getLsbD_fieldAt_outside, BitVec.or_zero, BitVec.zero_or, Bool.or_false,
      BitVec.ofNat_eq_ofNat]

/-! ## Suppression and outputs -/

/-- Settles O27, by the two encoders. -/
theorem onlyTuningSuppressed : Obligations.OnlyTuningSuppressed := by
  unfold Obligations.OnlyTuningSuppressed
  intro s e
  cases e with
  | tuning => simp [suppressed_tuning]
  | function => simp [suppressed_function]

/-- Settles O58: each output is a field of the state. -/
theorem outputsFromState : Obligations.OutputsFromState := by
  unfold Obligations.OutputsFromState
  exact fun s => ⟨rfl, rfl, rfl⟩

end Sys2Proof.Machine

/-! PROOF. ILL (R31): who sets it, and that reset alone clears it. -/

namespace Sys2Proof.Machine

/-- No operation changes ILL. -/
theorem effect_ill (i : Instr) (s : State) : (effect i s).ill = s.ill := by
  cases i with
  | nop | tone v | stop | rdstat w => rfl
  | drain e => rw [effect, drain_eq]
  | start =>
    simp only [effect, start_eq]
    split
    · rfl
    · split <;> rfl
  | settx v | setlock v => cases v <;> rfl
  | poll p1 p0 => rw [effect, poll_eq]
  | etick =>
    simp only [effect, State.etick]
    split <;> rfl

theorem illegalCommand_ill (s : State) : s.illegalCommand.ill = true := rfl

theorem exec_ill {i : Instr} {s t : State} (h : exec i s = .next t) : t.ill = s.ill := by
  rw [exec_eq_next_iff.mp h, effect_ill]

/-- Only a cycle of reset clears ILL, whatever arrives. -/
theorem perform_clears_ill {a : Arrival} {s t : State} (h : perform a s = .next t) (hs : s.ill = true)
    (ht : t.ill = false) : a = .resetCycle := by
  obtain ⟨i, ok, -, rfl⟩ | ⟨ok, -, rfl⟩ | ⟨-, -, rfl⟩ | ⟨ha, -⟩ := perform_next_cases h
  · rw [effect_ill] at ht
    exact nomatch hs.symm.trans ht
  · exact nomatch ht
  · exact nomatch hs.symm.trans ht
  · exact ha

theorem perform_command_ill {w : Byte} {ok : Option Bool} {s t : State} (h : perform (.command w ok) s = .next t) :
    t.ill = true ↔ s.ill = true ∨ ∃ r, decodeCmd w = .error r := by
  rw [perform] at h
  cases hw : decodeCmd w with
  | ok i =>
    rw [performCommand_ok hw] at h
    simp [exec_ill h]
  | error r =>
    rw [performCommand_error hw, Host.Outcome.next.injEq] at h
    simp [← h, illegalCommand_ill]

theorem perform_traceWord_ill {w : Byte} {ok : Option Bool} {s t : State} (h : perform (.traceWord w ok) s = .next t) :
    t.ill = true ↔ s.ill = true ∨ ∃ r, decodeTrace w = .illegal r := by
  rw [perform] at h
  cases hw : decodeTrace w with
  | operation i =>
    rw [performTraceWord_operation hw] at h
    simp [exec_ill h]
  | illegal r =>
    rw [performTraceWord_illegal hw, Host.Outcome.next.injEq] at h
    simp [← h, illegalCommand_ill]
  | notAnEvent =>
    rw [performTraceWord_notAnEvent hw] at h
    cases h

/-- STATUS0 shows ILL in bit 13 (R35). -/
theorem status0_bit13 (s : State) : s.status0.getLsbD 13 = s.ill := by
  obtain ⟨-, -, -, -, -, -, -, hill, -⟩ := statusZeroLayout s
  exact hill

/-- Settles O18, by what an operation, an illegal word and reset each do to ILL. -/
theorem illStickyUntilReset : Obligations.IllStickyUntilReset := by
  unfold Obligations.IllStickyUntilReset
  exact ⟨fun _ _ _ => perform_clears_ill, fun _ _ _ => exec_ill, fun _ _ _ _ => perform_command_ill,
    fun _ _ _ _ => perform_traceWord_ill, status0_bit13, rfl⟩

end Sys2Proof.Machine

/-! PROOF. Repeated commands (R56): a drained counter stays 0 until a POLL, and a repeated RDSTAT, NOP, STOP or START
changes nothing of the block. -/

namespace Sys2Proof.Machine

/-! ## What a run keeps -/

/-- What every arrival of a run keeps, the run keeps; a refused trace word ends the run where it stands. -/
theorem runAll_keeps {P : State → Prop} {l : List Arrival}
    (hstep : ∀ a ∈ l, ∀ s t, P s → perform a s = .next t → P t) {s : State} (h : P s) : P (runAll l s) := by
  induction l generalizing s with
  | nil => exact h
  | cons a rest ih =>
    obtain ⟨ha, hrest⟩ := List.forall_mem_cons.mp hstep
    rw [runAll]
    split
    · next t hp => exact ih hrest (ha s t h hp)
    · exact h
    · exact h

/-! ## The level of timer_ok that comes with a word is no part of the encoder half -/

section
variable (s : State) (ok : Option Bool) (e : Encoder)

@[simp] theorem setTimerOk_cnt : { s with timerOk := ok }.cnt e = s.cnt e := by cases e <;> rfl

@[simp] theorem setTimerOk_dec : { s with timerOk := ok }.dec e = s.dec e := by cases e <;> rfl

@[simp] theorem setTimerOk_suppressed : { s with timerOk := ok }.suppressed e = s.suppressed e := by cases e <;> rfl

end

/-! ## A counter at 0 -/

theorem drain_cnt (s : State) (e e' : Encoder) : (s.drain e).cnt e' = if e = e' then 0 else s.cnt e' := by
  rw [drain_eq]
  cases e <;> cases e' <;> rfl

@[simp] theorem drain_cnt_same (s : State) (e : Encoder) : (s.drain e).cnt e = 0 := by rw [drain_cnt, if_pos rfl]

@[simp] theorem drain_resp (s : State) (e : Encoder) :
    (s.drain e).resp = if s.suppressed e then 0 else s.cnt e := by rw [drain_eq]

/-- A counter at 0 stays there in every operation but POLL. -/
theorem effect_keeps_cnt_zero {i : Instr} {s : State} {e : Encoder} (hi : ∀ p1 p0, i ≠ .poll p1 p0)
    (h : s.cnt e = 0) : (effect i s).cnt e = 0 := by
  cases i with
  | nop | tone v | stop | rdstat w => cases e <;> exact h
  | drain e' => rw [effect, drain_cnt, h, ite_self]
  | start =>
    rw [effect, start_eq]
    split
    · cases e <;> exact h
    · split <;> cases e <;> exact h
  | settx v | setlock v =>
    cases v with
    | false => cases e <;> exact h
    | true =>
      cases e with
      | tuning => rfl
      | function => exact h
  | poll p1 p0 => exact absurd rfl (hi p1 p0)
  | etick =>
    rw [effect, State.etick]
    split <;> cases e <;> exact h

/-- A counter at 0 stays there in every arrival but a POLL, reset included. -/
theorem perform_keeps_cnt_zero {a : Arrival} {s t : State} {e : Encoder}
    (ha : ∀ p1 p0, operationOf a ≠ some (.poll p1 p0)) (h : s.cnt e = 0) (hp : perform a s = .next t) :
    t.cnt e = 0 := by
  obtain ⟨i, ok, hop, rfl⟩ | ⟨ok, -, rfl⟩ | ⟨-, -, rfl⟩ | ⟨-, rfl⟩ := perform_next_cases hp
  · exact effect_keeps_cnt_zero (fun p1 p0 hi => ha p1 p0 (hi ▸ hop)) ((setTimerOk_cnt s ok e).trans h)
  · cases e <;> exact h
  · exact h
  · cases e <;> rfl

theorem runAll_keeps_cnt_zero {l : List Arrival} {s : State} {e : Encoder}
    (hl : ∀ a ∈ l, ∀ p1 p0, operationOf a ≠ some (.poll p1 p0)) (h : s.cnt e = 0) : (runAll l s).cnt e = 0 :=
  runAll_keeps (P := fun s => s.cnt e = 0) (fun a ha _ _ => perform_keeps_cnt_zero (hl a ha)) h

/-! ## Commands that repeat -/

/-- A response is no state of the block (R20). -/
theorem sameBlock_respond (s : State) (r : Word) : s.SameBlock (s.respond r) := by simp [State.SameBlock]

theorem statusWord_respond (s : State) (r : Word) (w : StatusWord) :
    (s.respond r).statusWord w = s.statusWord w := by cases w <;> rfl

/-- A STOP of the stopped block is its response alone. -/
theorem stop_stop (c : Params) (s : State) : (s.stop c).stop c = (s.stop c).respond 0 := rfl

theorem start_armed (c : Params) {s : State} (h : s.armed = true) : s.start c = s.respond 1 := by
  rw [State.start, if_pos h]

/-- The answer 1 of START says that the timer is armed. -/
theorem armed_of_start_resp_one (c : Params) {s : State} (h : (s.start c).resp = 1) : (s.start c).armed = true := by
  rw [start_eq] at h ⊢
  split
  · assumption
  · next hs =>
    rw [if_neg hs] at h
    split
    · rfl
    · next hok =>
      rw [if_neg hok] at h
      have h : (0 : Word) = 1 := h
      exact absurd h (by decide)

/-- Settles O34: no arrival but a POLL moves a drained counter off 0, and each other repeat is a response alone. -/
theorem repeatedCommands : Obligations.RepeatedCommands := by
  unfold Obligations.RepeatedCommands
  simp only [exec_eq_next_iff]
  refine ⟨?drain, ?rdstat, ?nop, ?stop, ?start⟩
  case drain =>
    rintro e s _ _ l rfl hl rfl
    have hzero : (runAll l (s.drain e)).cnt e = 0 := runAll_keeps_cnt_zero hl (drain_cnt_same s e)
    exact ⟨fun hs => by simp [effect, hs], by simp [effect, hzero]⟩
  case rdstat =>
    rintro w s _ _ rfl rfl
    exact ⟨sameBlock_respond s _, statusWord_respond s _ w⟩
  case nop =>
    rintro s _ rfl
    exact sameBlock_respond s 0
  case stop =>
    rintro s _ _ rfl rfl
    rw [effect, effect, stop_stop]
    exact sameBlock_respond _ 0
  case start =>
    rintro s _ _ rfl hresp rfl
    rw [effect, effect, start_armed _ (armed_of_start_resp_one _ hresp)]
    exact ⟨sameBlock_respond _ 1, rfl⟩

end Sys2Proof.Machine

/-! PROOF. What arrives in one clock cycle (R60): the command, then the POLL, then the tick, each as a function on the
state, and what the later parts of the cycle leave of what the command did. -/

namespace Sys2Proof.Machine

/-! ## The arrivals of a cycle -/

/-- Three streams one after the other are one of their interleavings (R59). -/
theorem interleaving_append (h p t : List Arrival) : Interleaving h p t (h ++ (p ++ t)) := by
  induction h with
  | cons a h ih => exact .host a ih
  | nil =>
    induction p with
    | cons a p ih => exact .strobe a ih
    | nil =>
      induction t with
      | cons a t ih => exact .timer a ih
      | nil => exact .done

theorem arrivals_out_of_reset {p : PortCycle} (hr : p.rstN = true) :
    p.arrivals = (if p.cmdValid then [.command p.cmd (some p.timerOk)] else []) ++
      ((if p.pollStrobe then [.pollStrobe p.lines] else []) ++ (if p.timerTick then [.timerTick] else [])) := by
  rw [PortCycle.arrivals, if_pos hr, List.append_assoc]

theorem runAll_cons {a : Arrival} {s t : State} (h : perform a s = .next t) (rest : List Arrival) :
    runAll (a :: rest) s = runAll rest t := by rw [runAll, h]

/-- The word of a command is read as that command on the port (R79). -/
theorem decodeCmd_encode {i : Instr} (h : i.isCommand = true) : decodeCmd (encode i) = .ok i := by
  cases i with
  | nop | start | stop => rfl
  | drain e => cases e <;> rfl
  | tone v | settx v | setlock v => cases v <;> rfl
  | rdstat w => cases w <;> rfl
  | poll p1 p0 | etick => cases h

/-- The word of a command on the port performs the command, with the level of timer_ok that came with it. -/
theorem perform_command_encode {i : Instr} (h : i.isCommand = true) (ok : Option Bool) (s : State) :
    perform (.command (encode i) ok) s = .next (effect i { s with timerOk := ok }) := by
  rw [perform, performCommand_ok (decodeCmd_encode h), exec_eq_next]

/-- A pulse of the poll strobe performs the POLL of the values on the lines (R101). -/
theorem perform_pollStrobe (l : PhaseLines) (s : State) :
    perform (.pollStrobe l) s = .next (effect (.poll (phase1 l) (phase0 l)) s) := by
  rw [perform, exec_eq_next]

/-- The POLL of a cycle, if its strobe is given. -/
def PortCycle.afterPoll (p : PortCycle) (s : State) : State :=
  if p.pollStrobe then effect (.poll (phase1 p.lines) (phase0 p.lines)) s else s

/-- The tick of a cycle, if its pulse is given and the timer is armed. -/
def PortCycle.afterTick (p : PortCycle) (s : State) : State :=
  if p.timerTick && s.armed then s.tick Config.params else s

/-- A cycle out of reset with a command on the port: the command, then the POLL, then the tick. -/
theorem runAll_arrivals {p : PortCycle} {i : Instr} (hr : p.rstN = true) (hv : p.cmdValid = true)
    (hcmd : p.cmd = encode i) (hi : i.isCommand = true) (s : State) :
    runAll p.arrivals s = p.afterTick (p.afterPoll (effect i { s with timerOk := some p.timerOk })) := by
  have htick (u : State) : runAll (if p.timerTick then [.timerTick] else []) u = p.afterTick u := by
    cases ht : p.timerTick <;> cases ha : u.armed <;>
      simp [PortCycle.afterTick, runAll, perform, exec_eq_next, effect, ht, ha]
  rw [arrivals_out_of_reset hr, if_pos hv, hcmd, List.singleton_append, runAll_cons (perform_command_encode hi _ s),
    PortCycle.afterPoll]
  split
  · rw [List.singleton_append, runAll_cons (perform_pollStrobe _ _), htick]
  · rw [List.nil_append, htick]

/-! ## What the POLL and the tick of a cycle leave -/

/-- The POLL of a cycle writes the decoders and the counters, and nothing else. -/
theorem afterPoll_frame (p : PortCycle) (s : State) :
    ∃ d0 d1 c0 c1, p.afterPoll s = { s with dec0 := d0, dec1 := d1, cnt0 := c0, cnt1 := c1 } := by
  unfold PortCycle.afterPoll
  split
  · exact ⟨_, _, _, _, poll_eq s _ _⟩
  · exact ⟨_, _, _, _, rfl⟩

@[simp] theorem afterPoll_resp (p : PortCycle) (s : State) : (p.afterPoll s).resp = s.resp := by
  obtain ⟨d0, d1, c0, c1, h⟩ := afterPoll_frame p s
  rw [h]

@[simp] theorem afterPoll_suppressed (p : PortCycle) (s : State) (e : Encoder) :
    (p.afterPoll s).suppressed e = s.suppressed e := by
  obtain ⟨d0, d1, c0, c1, h⟩ := afterPoll_frame p s
  rw [h]
  cases e <;> rfl

/-- A POLL of an encoder that is not suppressed counts its decoder's result (R105). -/
theorem poll_cnt {s : State} {e : Encoder} (h : s.suppressed e = false) (p1 p0 : Phase) :
    (effect (.poll p1 p0) s).cnt e = (decoder (s.dec e) (pollPhase p1 p0 e)).2.count (s.cnt e) := by
  rw [effect, poll_eq]
  cases e with
  | tuning => exact if_neg (ne_true_of_eq_false h)
  | function => rfl

theorem afterTick_disarmed (p : PortCycle) {s : State} (h : s.armed = false) : p.afterTick s = s := by
  rw [PortCycle.afterTick, h, Bool.and_false]
  rfl

theorem afterTick_armed {p : PortCycle} (hp : p.timerTick = true) {s : State} (h : s.armed = true) :
    p.afterTick s = s.tick Config.params := by
  rw [PortCycle.afterTick, h, hp]
  rfl

@[simp] theorem afterTick_resp (p : PortCycle) (s : State) : (p.afterTick s).resp = s.resp := by
  unfold PortCycle.afterTick
  split <;> rfl

@[simp] theorem afterTick_suppressed (p : PortCycle) (s : State) (e : Encoder) :
    (p.afterTick s).suppressed e = s.suppressed e := by
  unfold PortCycle.afterTick
  split <;> cases e <;> rfl

@[simp] theorem afterTick_cnt (p : PortCycle) (s : State) (e : Encoder) : (p.afterTick s).cnt e = s.cnt e := by
  unfold PortCycle.afterTick
  split <;> cases e <;> rfl

/-! ## A STOP, a TONE and a DRAIN in the cycle -/

/-- A stopped block takes no tick in the rest of the cycle. -/
theorem stop_then_events (p : PortCycle) (s : State) :
    (p.afterTick (p.afterPoll (effect .stop s))).samples = s.samples ∧
      (p.afterTick (p.afterPoll (effect .stop s))).duty = Config.params.mid := by
  obtain ⟨d0, d1, c0, c1, h⟩ := afterPoll_frame p (effect .stop s)
  rw [h, afterTick_disarmed p rfl]
  exact ⟨rfl, rfl⟩

/-- The IDLE tick after a TONE in the same cycle samples the latch the TONE wrote (R134). -/
theorem tone_then_events {p : PortCycle} (hp : p.timerTick = true) {s : State} (ha : s.armed = true)
    (he : s.env = .idle) (v : Bool) :
    (p.afterTick (p.afterPoll (effect (.tone v) s))).env = if v then .attack else .idle := by
  obtain ⟨d0, d1, c0, c1, h⟩ := afterPoll_frame p (effect (.tone v) s)
  rw [h, afterTick_armed hp (by exact ha), tick_eq]
  change (nextEnvelope v s.env s.idx).1 = _
  rw [he]
  cases v <;> rfl

@[simp] theorem drain_suppressed (s : State) (e e' : Encoder) : (s.drain e).suppressed e' = s.suppressed e' := by
  rw [drain_eq]
  cases e' <;> rfl

@[simp] theorem drain_dec (s : State) (e e' : Encoder) : (s.drain e).dec e' = s.dec e' := by
  rw [drain_eq]
  cases e' <;> rfl

/-- The POLL after a DRAIN in the same cycle leaves exactly its own result in the counter. -/
theorem drain_then_poll_cnt {p : PortCycle} (hp : p.pollStrobe = true) {s : State} {e : Encoder}
    (hs : s.suppressed e = false) : (p.afterPoll (s.drain e)).cnt e =
      (decoder (s.dec e) (pollPhase (phase1 p.lines) (phase0 p.lines) e)).2.count 0 := by
  rw [PortCycle.afterPoll, if_pos hp, poll_cnt (by rw [drain_suppressed, hs]), drain_dec, drain_cnt_same]

/-- A DRAIN answers the count before the POLL in its cycle, and the next DRAIN of that encoder the POLL's own result. -/
theorem drain_then_events {p : PortCycle} (hp : p.pollStrobe = true) {s : State} {e : Encoder}
    (hs : s.suppressed e = false) :
    (p.afterTick (p.afterPoll (effect (.drain e) s))).resp = s.cnt e ∧
      (effect (.drain e) (p.afterTick (p.afterPoll (effect (.drain e) s)))).resp =
        (decoder (s.dec e) (pollPhase (phase1 p.lines) (phase0 p.lines) e)).2.count 0 := by
  simp [effect, hs, drain_then_poll_cnt hp hs]

/-- Settles O20, by the cycle as command, POLL and tick, and what the command and the POLL leave for the rest. -/
theorem sameCycleOrder : Obligations.SameCycleOrder := by
  unfold Obligations.SameCycleOrder
  refine ⟨?order, ?stop, ?tone, ?drain⟩
  case order =>
    intro p hr
    refine ⟨arrivals_out_of_reset hr, ?_⟩
    rw [arrivals_out_of_reset hr]
    exact interleaving_append _ _ _
  case stop =>
    intro p s hr hv hcmd
    rw [runAll_arrivals hr hv hcmd rfl]
    exact stop_then_events p _
  case tone =>
    intro p s v hr hv hcmd ht ha he
    rw [runAll_arrivals hr hv hcmd rfl]
    exact tone_then_events (s := { s with timerOk := some p.timerOk }) ht ha he v
  case drain =>
    intro p s e hr hv hcmd hp hs
    obtain ⟨hnow, hnext⟩ := drain_then_events hp ((setTimerOk_suppressed s (some p.timerOk) e).trans hs)
    rw [runAll_arrivals hr hv hcmd rfl]
    refine ⟨hnow.trans (setTimerOk_cnt s _ e), _, exec_eq_next _ _, hnext.trans ?_⟩
    rw [setTimerOk_dec]
    cases (decoder (s.dec e) (pollPhase (phase1 p.lines) (phase0 p.lines) e)).2 <;> rfl

end Sys2Proof.Machine

/-! PROOF. The decoders by the fields of a word (R71 to R79): which words the command port and the trace reader accept,
and what an illegal word does. -/

namespace Sys2Proof

/-! ## The fields of a word (R71) -/

theorem opField_toNat (w : Byte) : (opField w).toNat = w.toNat / 16 := by
  rw [opField, BitVec.extractLsb_toNat, Nat.shiftRight_eq_div_pow]
  omega

theorem argField_toNat (w : Byte) : (argField w).toNat = w.toNat % 16 := by
  rw [argField, BitVec.extractLsb_toNat, Nat.shiftRight_zero]

/-- A word is determined by its two fields. -/
theorem eq_iff_fields (w v : Byte) : w = v ↔ opField w = opField v ∧ argField w = argField v := by
  simp only [← BitVec.toNat_inj, opField_toNat, argField_toNat]
  omega

/-! ## The formats (R72) -/

theorem decodeF0_eq (i : Instr) (arg : BitVec 4) :
    decodeF0 i arg = if arg = 0 then .ok i else .error .argNotZero := by simp [decodeF0, Format.admits]

theorem decodeF1_eq (mk : Bool → Instr) (arg : BitVec 4) :
    decodeF1 mk arg = if arg.extractLsb 3 1 = 0 then .ok (mk arg[0]) else .error .argHighBitsNotZero := by
  simp [decodeF1, Format.admits]

/-- A one-bit operand field is 0 or 1. -/
theorem highBits_eq_zero_iff (arg : BitVec 4) : arg.extractLsb 3 1 = 0 ↔ arg = 0 ∨ arg = 1 := by
  revert arg; decide

/-! ## The command port -/

/-- The word has the `op` of an operation without operand (R73). -/
def NoOperandOp (w : Byte) : Prop := opField w = 0x0 ∨ opField w = 0x3 ∨ opField w = 0x4

/-- The word has the `op` of an operation with a one-bit operand (R73). -/
def BitOperandOp (w : Byte) : Prop :=
  opField w = 0x1 ∨ opField w = 0x2 ∨ opField w = 0x5 ∨ opField w = 0x6 ∨ opField w = 0x7

/-- The four classes of an `op` field: the operations that may carry a command, the events, and the reserved codes. -/
theorem op_cases (w : Byte) :
    NoOperandOp w ∨ BitOperandOp w ∨ (opField w = 0x8 ∨ opField w = 0x9) ∨ 0xA ≤ (opField w).toNat := by
  unfold NoOperandOp BitOperandOp
  bv_omega

theorem decodeCmd_noOperand {w : Byte} (h : NoOperandOp w) : ∃ i, decodeCmd w = decodeF0 i (argField w) := by
  obtain h | h | h := h <;> exact ⟨_, by rw [decodeCmd, h]; rfl⟩

theorem decodeCmd_bitOperand {w : Byte} (h : BitOperandOp w) : ∃ mk, decodeCmd w = decodeF1 mk (argField w) := by
  obtain h | h | h | h | h := h <;> exact ⟨_, by rw [decodeCmd, h]; rfl⟩

theorem decodeCmd_event {w : Byte} (h : opField w = 0x8 ∨ opField w = 0x9) :
    decodeCmd w = .error .eventOnCommandPort := by
  obtain h | h := h <;> rw [decodeCmd, h] <;> rfl

theorem decodeCmd_reserved {w : Byte} (h : 0xA ≤ (opField w).toNat) : decodeCmd w = .error .reservedOp := by
  unfold decodeCmd
  split
  case h_11 => rfl
  all_goals omega

/-- The clauses (a) to (d) of R77, each as what it asks of the word. -/
def IllegalWord.Clause (w : Byte) : IllegalWord → Prop
  | .reservedOp => 0xA ≤ (opField w).toNat
  | .eventOnCommandPort => opField w = 0x8 ∨ opField w = 0x9
  | .argNotZero => NoOperandOp w ∧ argField w ≠ 0
  | .argHighBitsNotZero => BitOperandOp w ∧ (argField w).extractLsb 3 1 ≠ 0

/-- The command port rejects a word for exactly the clause that holds of it (R77). -/
theorem decodeCmd_eq_error_iff {w : Byte} {r : IllegalWord} : decodeCmd w = .error r ↔ r.Clause w := by
  constructor
  · intro hr
    obtain h | h | h | h := op_cases w
    · obtain ⟨i, hi⟩ := decodeCmd_noOperand h
      rw [hi, decodeF0_eq] at hr
      split at hr <;> cases hr
      exact ⟨h, ‹_›⟩
    · obtain ⟨mk, hmk⟩ := decodeCmd_bitOperand h
      rw [hmk, decodeF1_eq] at hr
      split at hr <;> cases hr
      exact ⟨h, ‹_›⟩
    · rw [decodeCmd_event h] at hr
      cases hr
      exact h
    · rw [decodeCmd_reserved h] at hr
      cases hr
      exact h
  · intro h
    cases r with
    | reservedOp => exact decodeCmd_reserved h
    | eventOnCommandPort => exact decodeCmd_event h
    | argNotZero =>
      obtain ⟨hop, harg⟩ := h
      obtain ⟨i, hi⟩ := decodeCmd_noOperand hop
      rw [hi, decodeF0_eq, if_neg harg]
    | argHighBitsNotZero =>
      obtain ⟨hop, harg⟩ := h
      obtain ⟨mk, hmk⟩ := decodeCmd_bitOperand hop
      rw [hmk, decodeF1_eq, if_neg harg]

/-- The thirteen legal command words (V-I9). -/
def legalWords : List Byte :=
  [0x00, 0x10, 0x11, 0x20, 0x21, 0x30, 0x40, 0x50, 0x51, 0x60, 0x61, 0x70, 0x71]

theorem mem_legalWords_iff (w : Byte) :
    w ∈ legalWords ↔ NoOperandOp w ∧ argField w = 0 ∨ BitOperandOp w ∧ (argField w).extractLsb 3 1 = 0 := by
  revert w
  unfold NoOperandOp BitOperandOp
  decide

/-- The command port accepts exactly the legal words, as no clause of R77 holds of them. -/
theorem decodeCmd_eq_ok_iff {w : Byte} : (∃ i, decodeCmd w = .ok i) ↔ w ∈ legalWords := by
  rw [mem_legalWords_iff]
  constructor
  · rintro ⟨i, hi⟩
    have hno (r : IllegalWord) : ¬ r.Clause w := fun hr => nomatch hi.symm.trans (decodeCmd_eq_error_iff.mpr hr)
    obtain h | h | h | h := op_cases w
    · exact .inl ⟨h, not_not.mp fun ha => hno .argNotZero ⟨h, ha⟩⟩
    · exact .inr ⟨h, not_not.mp fun ha => hno .argHighBitsNotZero ⟨h, ha⟩⟩
    · exact absurd h (hno .eventOnCommandPort)
    · exact absurd h (hno .reservedOp)
  · rintro (⟨hop, harg⟩ | ⟨hop, harg⟩)
    · obtain ⟨i, hi⟩ := decodeCmd_noOperand hop
      exact ⟨i, by rw [hi, decodeF0_eq, if_pos harg]⟩
    · obtain ⟨mk, hmk⟩ := decodeCmd_bitOperand hop
      exact ⟨mk (argField w)[0], by rw [hmk, decodeF1_eq, if_pos harg]⟩

/-! ## The trace reader -/

/-- A word with a command's `op` is never refused: the reader reads it as the command port does (R79). -/
theorem decodeTrace_command_ne_notAnEvent {w : Byte} (h : (opField w).toNat < 0x8) : decodeTrace w ≠ .notAnEvent := by
  unfold decodeTrace
  split
  case h_9 => split <;> exact nofun
  all_goals omega

theorem decodeTrace_poll {w : Byte} (h : (opField w).toNat = 0x8) :
    decodeTrace w = .operation (.poll ((argField w).extractLsb 3 2) ((argField w).extractLsb 1 0)) := by
  rw [decodeTrace, h]
  rfl

theorem decodeTrace_etickOp {w : Byte} (h : (opField w).toNat = 0x9) :
    decodeTrace w = if argField w = 0 then .operation .etick else .notAnEvent := by
  rw [decodeTrace, h]
  simp [Format.admits]

theorem decodeTrace_reserved {w : Byte} (h : 0xA ≤ (opField w).toNat) : decodeTrace w = .notAnEvent := by
  unfold decodeTrace
  split
  case h_9 =>
    simp only [imp_false] at *
    omega
  case h_1 | h_2 => omega
  all_goals rfl

/-- What the trace reader refuses: an ETICK's `op` with a nonzero `arg`, and the reserved codes (R78). -/
theorem decodeTrace_eq_notAnEvent_iff {w : Byte} : decodeTrace w = .notAnEvent ↔ 0x91 ≤ w.toNat := by
  have hop := opField_toNat w
  have hzero : argField w = 0 ↔ w.toNat % 16 = 0 := by rw [← argField_toNat, ← BitVec.toNat_inj]; rfl
  obtain h | h | h | h : (opField w).toNat < 0x8 ∨ (opField w).toNat = 0x8 ∨ (opField w).toNat = 0x9 ∨
    0xA ≤ (opField w).toNat := by omega
  · exact iff_of_false (decodeTrace_command_ne_notAnEvent h) (by omega)
  · rw [decodeTrace_poll h]
    exact iff_of_false nofun (by omega)
  · simp only [decodeTrace_etickOp h, hzero, ite_eq_right_iff, reduceCtorEq, imp_false]
    omega
  · exact iff_of_true (decodeTrace_reserved h) (by omega)

end Sys2Proof

namespace Sys2Proof.Machine

/-- Settles O8: each clause is the decoder's by `decodeCmd_eq_error_iff`, and an illegal word raises IllegalCommand. -/
theorem illegalWordsByClause : Obligations.IllegalWordsByClause := by
  unfold Obligations.IllegalWordsByClause
  refine ⟨fun w => ⟨decodeCmd_eq_error_iff, decodeCmd_eq_error_iff, decodeCmd_eq_error_iff, decodeCmd_eq_error_iff,
    decodeCmd_eq_ok_iff⟩, ?_⟩
  intro w r ok s hw
  refine ⟨_, performCommand_error hw _, ?_, rfl⟩
  simp [State.SameBlock, illegalCommand_eq]

/-- The step refuses a trace word exactly when the reader does. -/
theorem perform_traceWord_refused_iff {w : Byte} {ok : Option Bool} {s : State} :
    perform (.traceWord w ok) s = .refused (.notATraceWord w) ↔ decodeTrace w = .notAnEvent := by
  rw [perform]
  cases hw : decodeTrace w with
  | operation i => simp [performTraceWord_operation hw, exec_eq_next]
  | illegal r => simp [performTraceWord_illegal hw]
  | notAnEvent => simp [performTraceWord_notAnEvent hw]

/-- Settles O9, by what the reader makes of each class of `op`. -/
theorem traceReaderRefusals : Obligations.TraceReaderRefusals := by
  unfold Obligations.TraceReaderRefusals
  refine ⟨fun w ok s => perform_traceWord_refused_iff.trans decodeTrace_eq_notAnEvent_iff, ?_⟩
  intro w hlo hhi
  have hop : (opField w).toNat = 0x8 := by rw [opField_toNat]; omega
  exact ⟨_, _, decodeTrace_poll hop⟩

end Sys2Proof.Machine

/-! PROOF. The assembler (R80, R81): how a line falls into its pieces, and that the text of an operation is read as that
operation. -/

namespace Sys2Proof.Machine

/-! ## The pieces of a line -/

/-- A text that is one piece of a line: not empty, and without the characters that end a piece or the line. -/
def IsPiece (w : List Char) : Prop := w ≠ [] ∧ ∀ ch ∈ w, ch ≠ ' ' ∧ ch ≠ ',' ∧ ch ≠ ';'

theorem IsPiece.semicolon_notMem {w : List Char} (h : IsPiece w) : ';' ∉ w := by
  intro hmem
  obtain ⟨-, -, hne⟩ := h.2 ';' hmem
  exact hne rfl

/-- A character other than a separator joins the piece that is being read. -/
theorem pieces_cons {ch : Char} (hspace : ch ≠ ' ') (hcomma : ch ≠ ',') (acc rest : List Char) :
    pieces acc (ch :: rest) = pieces (ch :: acc) rest := pieces.eq_4 acc ch rest hspace hcomma

theorem pieces_append {w : List Char} (h : IsPiece w) (acc rest : List Char) :
    pieces acc (w ++ rest) = pieces (w.reverse ++ acc) rest := by
  obtain ⟨-, h⟩ := h
  induction w generalizing acc with
  | nil => rfl
  | cons ch w ih =>
    obtain ⟨⟨hspace, hcomma, -⟩, hw⟩ := List.forall_mem_cons.mp h
    rw [List.cons_append, pieces_cons hspace hcomma, ih _ hw, List.reverse_cons, List.append_assoc,
      List.singleton_append]

theorem closePiece_reverse {w : List Char} (h : IsPiece w) (ps : List (List Char)) :
    closePiece w.reverse ps = w :: ps := by
  obtain ⟨hne, -⟩ := h
  simp [closePiece, hne]

theorem pieces_piece {w : List Char} (h : IsPiece w) : pieces [] w = [w] := by
  have happend := pieces_append h [] []
  rw [List.append_nil, List.append_nil] at happend
  rw [happend, pieces, closePiece_reverse h]

theorem pieces_piece_space {w : List Char} (h : IsPiece w) (rest : List Char) :
    pieces [] (w ++ ' ' :: rest) = w :: pieces [] rest := by
  rw [pieces_append h, List.append_nil, pieces, closePiece_reverse h]

theorem pieces_piece_comma {w : List Char} (h : IsPiece w) (rest : List Char) :
    pieces [] (w ++ ',' :: rest) = w :: [','] :: pieces [] rest := by
  rw [pieces_append h, List.append_nil, pieces, closePiece_reverse h]

/-- A space at the end of a line adds no piece. -/
theorem pieces_append_space (acc line : List Char) : pieces acc (line ++ [' ']) = pieces acc line := by
  induction acc, line using pieces.induct with
  | case1 acc => simp [pieces, closePiece]
  | case2 acc rest ih | case3 acc rest ih => simp [pieces, ih]
  | case4 acc ch rest hspace hcomma ih =>
    rw [List.cons_append, pieces_cons hspace hcomma, pieces_cons hspace hcomma, ih]

/-! ## A line and its comment -/

theorem stripComment_append {line : List Char} (h : ';' ∉ line) (rest : List Char) :
    stripComment (line ++ rest) = line ++ stripComment rest :=
  List.takeWhile_append_of_pos fun ch hch => by simpa using ne_of_mem_of_not_mem hch h

theorem stripComment_of_notMem {line : List Char} (h : ';' ∉ line) : stripComment line = line := by
  simpa [stripComment] using stripComment_append h []

/-- A comment after a line's text is no part of it. -/
theorem assembleLine_comment {line : List Char} (h : ';' ∉ line) (comment : List Char) :
    assembleLine (line ++ [' ', ';'] ++ comment) = assembleLine line := by
  have hstrip : stripComment (line ++ [' ', ';'] ++ comment) = line ++ [' '] := by
    rw [List.append_assoc, stripComment_append h]
    rfl
  rw [assembleLine, assembleLine, hstrip, stripComment_of_notMem h, pieces_append_space]

/-- A line assembles to the word of the operation its pieces name. -/
theorem assembleLine_eq_word {line : List Char} {i : Instr} (h : ';' ∉ line)
    (hread : readOperation (pieces [] line) = some i) : assembleLine line = .word (encode i) := by
  rw [assembleLine, stripComment_of_notMem h]
  split
  · next hps => rw [hps] at hread; cases hread
  · rw [hread]

/-! ## The texts of the operations -/

theorem mnemonicText_isPiece (i : Instr) : IsPiece (mnemonicText i) := by cases i <;> simp [IsPiece, mnemonicText]

theorem bitText_isPiece (v : Bool) : IsPiece (bitText v) := by cases v <;> simp [IsPiece, bitText]

theorem phaseText_isPiece (p : Phase) : IsPiece (phaseText p) := by
  unfold phaseText
  split <;> simp [IsPiece]

theorem readPhase_phaseText (p : Phase) : readPhase (phaseText p) = some p := by revert p; decide

/-- A phase value in binary: the digits `BA` with the suffix `b` (R80). -/
def binaryPhaseText (b a : Bool) : List Char := bitText b ++ bitText a ++ ['b']

theorem binaryPhaseText_isPiece (b a : Bool) : IsPiece (binaryPhaseText b a) := by
  cases b <;> cases a <;> simp [IsPiece, binaryPhaseText, bitText]

theorem readPhase_binaryPhaseText (b a : Bool) :
    readPhase (binaryPhaseText b a) = some (BitVec.ofBool b ++ BitVec.ofBool a) := by
  cases b <;> cases a <;> rfl

/-- The text of a POLL whose phase values are written as these (R80). -/
def pollText (t1 t0 : List Char) : List Char := mnemonicText (.poll 0 0) ++ ' ' :: (t1 ++ ',' :: ' ' :: t0)

theorem instrText_poll (p1 p0 : Phase) : instrText (.poll p1 p0) = pollText (phaseText p1) (phaseText p0) := by
  simp [instrText, pollText, mnemonicText]

theorem readOperation_pollText {t1 t0 : List Char} {p1 p0 : Phase} (h1 : IsPiece t1) (h0 : IsPiece t0)
    (hp1 : readPhase t1 = some p1) (hp0 : readPhase t0 = some p0) :
    readOperation (pieces [] (pollText t1 t0)) = some (.poll p1 p0) := by
  rw [pollText, pieces_piece_space (mnemonicText_isPiece _), pieces_piece_comma h1]
  have hspace : pieces [] (' ' :: t0) = [t0] := by rw [pieces, pieces_piece h0]; rfl
  rw [hspace, readOperation, if_pos (by decide), hp1, hp0]

theorem pollText_semicolon_notMem {t1 t0 : List Char} (h1 : IsPiece t1) (h0 : IsPiece t0) : ';' ∉ pollText t1 t0 := by
  simp [pollText, mnemonicText, h1.semicolon_notMem, h0.semicolon_notMem]

/-- A POLL assembles to its word however each of its phase values is written. -/
theorem assembleLine_pollText {t1 t0 : List Char} {p1 p0 : Phase} (h1 : IsPiece t1) (h0 : IsPiece t0)
    (hp1 : readPhase t1 = some p1) (hp0 : readPhase t0 = some p0) :
    assembleLine (pollText t1 t0) = .word (encode (.poll p1 p0)) :=
  assembleLine_eq_word (pollText_semicolon_notMem h1 h0) (readOperation_pollText h1 h0 hp1 hp0)

/-- The text of every operation is read as that operation. -/
theorem readOperation_instrText (i : Instr) : readOperation (pieces [] (instrText i)) = some i := by
  cases i with
  | nop | start | stop | etick => rfl
  | drain e => cases e <;> rfl
  | tone v | settx v | setlock v => cases v <;> rfl
  | rdstat w => cases w <;> rfl
  | poll p1 p0 =>
    rw [instrText_poll]
    exact readOperation_pollText (phaseText_isPiece p1) (phaseText_isPiece p0) (readPhase_phaseText p1)
      (readPhase_phaseText p0)

theorem instrText_semicolon_notMem (i : Instr) : ';' ∉ instrText i := by
  cases i with
  | nop | start | stop | etick => simp [instrText, mnemonicText]
  | drain v | tone v | settx v | setlock v | rdstat v =>
    simp [instrText, mnemonicText, (bitText_isPiece _).semicolon_notMem]
  | poll p1 p0 =>
    rw [instrText_poll]
    exact pollText_semicolon_notMem (phaseText_isPiece p1) (phaseText_isPiece p0)

/-- Settles O12: the text of an operation names it, and a phase value is read alike in decimal and in binary. -/
theorem assembledTextIsEncoded : Obligations.AssembledTextIsEncoded := by
  unfold Obligations.AssembledTextIsEncoded
  have htext (i : Instr) : assembleLine (instrText i) = .word (encode i) :=
    assembleLine_eq_word (instrText_semicolon_notMem i) (readOperation_instrText i)
  refine ⟨fun i comment => ⟨htext i, ?_⟩, fun b1 a1 b0 a0 => ?_⟩
  · rw [assembleLine_comment (instrText_semicolon_notMem i), htext]
  · have hpoll := assembleLine_pollText (binaryPhaseText_isPiece b1 a1) (binaryPhaseText_isPiece b0 a0)
      (readPhase_binaryPhaseText b1 a1) (readPhase_binaryPhaseText b0 a0)
    simpa [pollText, binaryPhaseText, mnemonicText] using hpoll

/-! ## The pseudo-instructions -/

theorem name_isPiece (q : Pseudo) : IsPiece q.name := by cases q <;> simp [IsPiece, Pseudo.name]

/-- A pseudo-instruction assembles to the word of its expansion (R81). -/
theorem assembleLine_name (q : Pseudo) : assembleLine q.name = .word (encode q.expand) := by
  refine assembleLine_eq_word (name_isPiece q).semicolon_notMem ?_
  rw [pieces_piece (name_isPiece q)]
  cases q <;> rfl

/-- Settles O11: each name assembles to the word of its expansion, and the expansions are those of the table. -/
theorem pseudoExpansions : Obligations.PseudoExpansions := by
  unfold Obligations.PseudoExpansions
  simp only [assembleLine_name]
  exact ⟨rfl, rfl⟩

end Sys2Proof.Machine

/-! PROOF. The operations of the encoder half, each as one update of the state: POLL (R101, R105, R106), DRAIN (R107),
SETTX (R110) and SETLOCK (R111), with their words. -/

namespace Sys2Proof.Machine

/-! ## Words with a set bit of arg[3:1] -/

/-- A set bit of arg[3:1] makes the word of a one-bit operation illegal (R77 (d)). -/
theorem decodeCmd_argHighBits {w : Byte} (hop : BitOperandOp w) (harg : (argField w).extractLsb 3 1 ≠ 0) :
    decodeCmd w = .error .argHighBitsNotZero := decodeCmd_eq_error_iff.mpr ⟨hop, harg⟩

/-! ## The phase lines -/

theorem toNat_ofBool_append (b a : Bool) :
    (BitVec.ofBool b ++ BitVec.ofBool a).toNat = 2 * b.toNat + a.toNat := by cases b <;> cases a <;> rfl

/-- Settles O14: the strobe's POLL takes its phase values from the lines, B above A. -/
theorem pollSamplesLines : Obligations.PollSamplesLines := by
  unfold Obligations.PollSamplesLines
  exact fun l s => ⟨rfl, toNat_ofBool_append _ _, toNat_ofBool_append _ _⟩

/-! ## POLL -/

/-- Settles O25, by `poll_eq`; its words have the `op` of an event. -/
theorem pollAdvancesDecoders : Obligations.PollAdvancesDecoders := by
  unfold Obligations.PollAdvancesDecoders
  refine ⟨?effect, ?word, ?illegal⟩
  case effect =>
    intro s p1 p0
    rw [exec_eq_next, effect, poll_eq]
    cases (decoder s.dec0 p0).2 <;> cases (decoder s.dec1 p1).2 <;> rfl
  case word => decide
  case illegal =>
    intro p1 p0
    have hop : opField (encode (.poll p1 p0)) = 0x8 := by revert p1 p0; decide
    exact decodeCmd_event (.inl hop)

/-- Counting adds the result to the signed count, modulo 2^32 in two's complement (R105, R106). -/
theorem toInt_count (d : Direction) (c : Word) : (d.count c).toInt = (c.toInt + d.delta).bmod (2 ^ 32) := by
  cases d with
  | none => rw [Direction.count, Direction.delta, Int.add_zero, BitVec.toInt_bmod_cancel]
  | cw => exact BitVec.toInt_add c 1
  | ccw => exact BitVec.toInt_sub

/-- An increment wraps at 2^31 - 1 and nowhere else (R106). -/
theorem toInt_count_cw (c : Word) :
    (Direction.cw.count c).toInt = if c.toInt = 2 ^ 31 - 1 then -2 ^ 31 else c.toInt + 1 := by
  have hlo := c.le_toInt
  have hhi := c.toInt_lt
  rw [toInt_count, Direction.delta, Int.bmod_def]
  split <;> split <;> omega

/-- A decrement wraps at -2^31 and nowhere else (R106). -/
theorem toInt_count_ccw (c : Word) :
    (Direction.ccw.count c).toInt = if c.toInt = -2 ^ 31 then 2 ^ 31 - 1 else c.toInt - 1 := by
  have hlo := c.le_toInt
  have hhi := c.toInt_lt
  rw [toInt_count, Direction.delta, Int.bmod_def]
  split <;> split <;> omega

/-- Settles O26: the counter of a POLL that counts is `Direction.count` of the old one, and a POLL writes neither a flag
nor the record. -/
theorem countersWrap : Obligations.CountersWrap := by
  unfold Obligations.CountersWrap
  intro s t e p1 p0 h hs
  obtain rfl := exec_eq_next_iff.mp h
  refine ⟨fun hd => ?_, fun hd => ?_, effect_ill _ s, ?_, ?_⟩
  · rw [poll_cnt hs, hd, toInt_count_cw]
  · rw [poll_cnt hs, hd, toInt_count_ccw]
  · rw [effect, poll_eq]; rfl
  · rw [effect, poll_eq]

/-! ## DRAIN -/

/-- Settles O28, by `drain_eq`. -/
theorem drainReadsAndResets : Obligations.DrainReadsAndResets := by
  unfold Obligations.DrainReadsAndResets
  refine ⟨?suppressed, ?tuning, ?function, decodeCmd_encode (i := .drain .tuning) rfl,
    decodeCmd_encode (i := .drain .function) rfl, fun w hop => decodeCmd_argHighBits (.inl hop)⟩
  case suppressed =>
    intro s hs
    simp [exec_eq_next, effect, drain_eq, hs]
  case tuning =>
    intro s hs
    simp [exec_eq_next, effect, drain_eq, hs]
  case function =>
    intro s
    simp [exec_eq_next, effect, drain_eq]

/-! ## SETTX and SETLOCK -/

/-- SETTX as one update. -/
theorem settx_eq (v : Bool) (s : State) : effect (.settx v) s =
    { s with tx := v, cnt0 := if v then 0 else s.cnt0, respValid := true, resp := 0,
             record := s.record ++ [.response 0 none] } := by cases v <;> rfl

/-- SETLOCK as one update. -/
theorem setlock_eq (v : Bool) (s : State) : effect (.setlock v) s =
    { s with lock := v, cnt0 := if v then 0 else s.cnt0, respValid := true, resp := 0,
             record := s.record ++ [.response 0 none] } := by cases v <;> rfl

/-- Settles O29, by `settx_eq`. -/
theorem settxWritesTx : Obligations.SettxWritesTx := by
  unfold Obligations.SettxWritesTx
  exact ⟨fun v s => by rw [exec_eq_next, settx_eq], decodeCmd_encode (i := .settx false) rfl,
    decodeCmd_encode (i := .settx true) rfl, fun w hop => decodeCmd_argHighBits (.inr (.inr (.inl hop)))⟩

/-- Settles O30, by `setlock_eq`. -/
theorem setlockWritesLock : Obligations.SetlockWritesLock := by
  unfold Obligations.SetlockWritesLock
  exact ⟨fun v s => by rw [exec_eq_next, setlock_eq], decodeCmd_encode (i := .setlock false) rfl,
    decodeCmd_encode (i := .setlock true) rfl,
    fun w hop => decodeCmd_argHighBits (.inr (.inr (.inr (.inl hop))))⟩

end Sys2Proof.Machine

/-! PROOF. Runs by their trail of moments, and the accounting of R108: each moment balances, so a run does; with it R109
(TX) and R112 (the held decoder). -/

namespace Sys2Proof.Machine

/-! ## A run and its trail -/

theorem trail_cons {a : Arrival} {s t : State} (h : perform a s = .next t) (rest : List Arrival) :
    trail (a :: rest) s = ⟨a, s, t⟩ :: trail rest t := by rw [trail, h]

theorem trail_refused {a : Arrival} {s : State} {r : Refusal} (h : perform a s = .refused r) (rest : List Arrival) :
    trail (a :: rest) s = [] := by rw [trail, h]

theorem runAll_refused {a : Arrival} {s : State} {r : Refusal} (h : perform a s = .refused r) (rest : List Arrival) :
    runAll (a :: rest) s = s := by rw [runAll, h]

/-- A run is empty, or an arrival that is performed followed by a run; a refused trace word ends it. -/
theorem trail_runAll_induction {motive : State → List Moment → State → Prop} (done : ∀ s, motive s [] s)
    (performed : ∀ a s t ms u, perform a s = .next t → motive t ms u → motive s (⟨a, s, t⟩ :: ms) u)
    (l : List Arrival) (s : State) : motive s (trail l s) (runAll l s) := by
  induction l generalizing s with
  | nil => exact done s
  | cons a rest ih =>
    obtain ⟨t, h⟩ | ⟨w, ok, -, -, h⟩ := perform_cases a s
    · rw [trail_cons h, runAll_cons h]
      exact performed a s t _ _ h (ih t)
    · rw [trail_refused h, runAll_refused h]
      exact done s

/-- Each moment of a run is its arrival performed. -/
theorem perform_of_mem_trail (l : List Arrival) (s : State) :
    ∀ m ∈ trail l s, perform m.arrival m.before = .next m.after := by
  refine trail_runAll_induction (motive := fun _ ms _ => ∀ m ∈ ms, perform m.arrival m.before = .next m.after)
    (fun _ => List.forall_mem_nil _) ?_ l s
  intro a s t ms u h ih
  exact List.forall_mem_cons.mpr ⟨h, ih⟩

/-- What arrives in a moment of a run is one of the run's arrivals. -/
theorem arrival_mem_of_mem_trail {l : List Arrival} {s : State} {m : Moment} (hm : m ∈ trail l s) : m.arrival ∈ l := by
  induction l generalizing s with
  | nil => cases hm
  | cons a rest ih =>
    obtain ⟨t, h⟩ | ⟨w, ok, -, -, h⟩ := perform_cases a s
    · rw [trail_cons h] at hm
      obtain rfl | hm := List.mem_cons.mp hm
      · exact List.mem_cons_self
      · exact List.mem_cons_of_mem a (ih hm)
    · rw [trail_refused h] at hm
      cases hm

/-- What every moment of a run keeps, the run keeps. -/
theorem runAll_of_trail {P : State → Prop} (l : List Arrival) (s : State) (h : P s)
    (hstep : ∀ m ∈ trail l s, P m.before → P m.after) : P (runAll l s) := by
  revert h hstep
  refine trail_runAll_induction (motive := fun s ms u => P s → (∀ m ∈ ms, P m.before → P m.after) → P u)
    (fun _ h _ => h) ?_ l s
  intro a s t ms u _ ih h hstep
  obtain ⟨hm, hms⟩ := List.forall_mem_cons.mp hstep
  exact ih (hm h) hms

/-! ## What an operation leaves of the encoder file -/

/-- The operations that can change a counter (R22). -/
inductive WritesCounter : Instr → Prop
  | poll (p1 p0 : Phase) : WritesCounter (.poll p1 p0)
  | drain (e : Encoder) : WritesCounter (.drain e)
  | settx : WritesCounter (.settx true)
  | setlock : WritesCounter (.setlock true)

/-- Only POLL steps a decoder, and only the operations above write a counter (R21, R22). -/
theorem effect_encoder_frame (i : Instr) (s : State) (e : Encoder) :
    ((∀ p1 p0, i ≠ .poll p1 p0) → (effect i s).dec e = s.dec e) ∧
      (¬ WritesCounter i → (effect i s).cnt e = s.cnt e) := by
  cases i with
  | nop | tone v | stop | rdstat w => cases e <;> exact ⟨fun _ => rfl, fun _ => rfl⟩
  | drain e' => exact ⟨fun _ => drain_dec s e' e, fun h => absurd (.drain e') h⟩
  | start =>
    rw [effect, start_eq]
    split
    · cases e <;> exact ⟨fun _ => rfl, fun _ => rfl⟩
    · split <;> cases e <;> exact ⟨fun _ => rfl, fun _ => rfl⟩
  | settx v | setlock v =>
    cases v with
    | true => cases e <;> exact ⟨fun _ => rfl, fun h => absurd (by constructor) h⟩
    | false => cases e <;> exact ⟨fun _ => rfl, fun _ => rfl⟩
  | poll p1 p0 => exact ⟨fun h => absurd rfl (h p1 p0), fun h => absurd (.poll p1 p0) h⟩
  | etick =>
    rw [effect, State.etick]
    split <;> cases e <;> exact ⟨fun _ => rfl, fun _ => rfl⟩

/-- A POLL under suppression holds the tuning decoder and discards its count (R105). -/
theorem poll_suppressed {s : State} (h : s.suppressed .tuning = true) (p1 p0 : Phase) :
    (effect (.poll p1 p0) s).dec0 = s.dec0 ∧ (effect (.poll p1 p0) s).cnt0 = 0 := by
  rw [effect, poll_eq]
  exact ⟨if_pos h, if_pos h⟩

/-! ## One moment's accounts (R108) -/

/-- A moment has accounts only where its operation writes a counter. -/
theorem no_accounts {m : Moment} (h : ∀ i, operationOf m.arrival = some i → ¬ WritesCounter i) (e : Encoder) :
    m.drained e = 0 ∧ m.discarded e = 0 ∧ m.produced e = 0 := by
  unfold Moment.drained Moment.discarded Moment.produced
  cases hop : operationOf m.arrival with
  | none => exact ⟨rfl, rfl, rfl⟩
  | some i =>
    cases i with
    | nop | tone v | start | stop | rdstat w | etick => exact ⟨rfl, rfl, rfl⟩
    | drain e' | poll p1 p0 => exact absurd (by constructor) (h _ hop)
    | settx v | setlock v =>
      cases v with
      | true => exact absurd (by constructor) (h _ hop)
      | false => exact ⟨rfl, rfl, rfl⟩

/-- The moment's accounts balance: what was drained, left and discarded is the old count with the result, wrapped. -/
def Moment.Balanced (e : Encoder) (m : Moment) : Prop :=
  m.drained e + (m.after.cnt e).toInt + m.discarded e = (m.produced e + (m.before.cnt e).toInt).bmod (2 ^ 32)

/-- A moment without a result balances if what it drained, left and discarded is the old count. -/
theorem balanced_of_no_result {m : Moment} {e : Encoder} (hp : m.produced e = 0)
    (h : m.drained e + (m.after.cnt e).toInt + m.discarded e = (m.before.cnt e).toInt) : m.Balanced e := by
  rw [Moment.Balanced, h, hp, Int.zero_add, BitVec.toInt_bmod_cancel]

theorem balanced_of_cnt_kept {m : Moment} {e : Encoder}
    (h : ∀ i, operationOf m.arrival = some i → ¬ WritesCounter i) (hc : m.after.cnt e = m.before.cnt e) :
    m.Balanced e := by
  obtain ⟨hd, hx, hp⟩ := no_accounts h e
  refine balanced_of_no_result hp ?_
  rw [hd, hx, hc, Int.zero_add, Int.add_zero]

/-- A POLL that counts adds its result to the count; a suppressed one discards the count. -/
theorem poll_balanced {a : Arrival} {p1 p0 : Phase} (hop : operationOf a = some (.poll p1 p0)) (s : State)
    (ok : Option Bool) (e : Encoder) : Moment.Balanced e ⟨a, s, effect (.poll p1 p0) { s with timerOk := ok }⟩ := by
  cases hs : s.suppressed e with
  | false =>
    have hc := poll_cnt ((setTimerOk_suppressed s ok e).trans hs) p1 p0
    rw [Moment.Balanced, hc, toInt_count]
    cases e <;> simp_all [Moment.drained, Moment.discarded, Moment.produced, Int.add_comm]
  | true =>
    cases e with
    | function => cases hs
    | tuning =>
      obtain ⟨-, hc⟩ := poll_suppressed ((setTimerOk_suppressed s ok .tuning).trans hs) p1 p0
      apply balanced_of_no_result <;> simp_all [Moment.drained, Moment.discarded, Moment.produced]

/-- A DRAIN returns the count, or discards it under suppression, and leaves the other encoder's. -/
theorem drain_balanced {a : Arrival} {e' : Encoder} (hop : operationOf a = some (.drain e')) (s : State)
    (ok : Option Bool) (e : Encoder) : Moment.Balanced e ⟨a, s, effect (.drain e') { s with timerOk := ok }⟩ := by
  apply balanced_of_no_result
  · simp [Moment.produced, hop]
  · by_cases he : e' = e
    · subst he
      cases e' with
      | function => simp [Moment.drained, Moment.discarded, hop, effect, drain_eq]
      | tuning =>
        cases hs : s.suppressed .tuning <;>
          simp_all [Moment.drained, Moment.discarded, effect, drain_eq]
    · have hx (t : State) : Moment.discarded e ⟨a, s, t⟩ = 0 := by
        cases e' <;> cases e <;> simp_all [Moment.discarded]
      simp [hx, Moment.drained, hop, he, effect, drain_cnt]

theorem operation_balanced {a : Arrival} {i : Instr} (hop : operationOf a = some i) (s : State)
    (ok : Option Bool) (e : Encoder) : Moment.Balanced e ⟨a, s, effect i { s with timerOk := ok }⟩ := by
  by_cases hi : WritesCounter i
  · cases hi with
    | poll p1 p0 => exact poll_balanced hop s ok e
    | drain e' => exact drain_balanced hop s ok e
    | settx | setlock =>
      apply balanced_of_no_result
      · simp [Moment.produced, hop]
      · cases e <;> simp [Moment.drained, Moment.discarded, hop, settx_eq, setlock_eq]
  · refine balanced_of_cnt_kept (fun j hj => ?_)
      (((effect_encoder_frame i _ e).2 hi).trans (setTimerOk_cnt s ok e))
    rwa [← Option.some.inj (hop.symm.trans hj)]

/-- An arrival of an operation other than the tick, which a disarmed timer does not give, performs it. -/
theorem perform_effect {a : Arrival} {i : Instr} {s t : State} (h : perform a s = .next t)
    (hop : operationOf a = some i) (hi : i ≠ .etick) : ∃ ok, t = effect i { s with timerOk := ok } := by
  obtain ⟨j, ok, hj, ht⟩ | ⟨ok, hn, -⟩ | ⟨rfl, -, -⟩ | ⟨rfl, -⟩ := perform_next_cases h
  · obtain rfl : i = j := Option.some.inj (hop.symm.trans hj)
    exact ⟨ok, ht⟩
  · exact nomatch hn.symm.trans hop
  · exact absurd (Option.some.inj hop).symm hi
  · cases hop

/-- Every arrival but a cycle of reset balances. -/
theorem perform_balanced {a : Arrival} {s t : State} (h : perform a s = .next t) (hr : a ≠ .resetCycle)
    (e : Encoder) : Moment.Balanced e ⟨a, s, t⟩ := by
  obtain ⟨i, ok, hop, rfl⟩ | ⟨ok, hop, rfl⟩ | ⟨rfl, -, rfl⟩ | ⟨ha, -⟩ := perform_next_cases h
  · exact operation_balanced hop s ok e
  · exact balanced_of_cnt_kept (fun i hi => nomatch hop.symm.trans hi) (by cases e <;> rfl)
  · refine balanced_of_cnt_kept (fun i hi => ?_) rfl
    obtain rfl : Instr.etick = i := Option.some.inj hi
    exact nofun
  · exact absurd ha hr

/-! ## What is discarded (R108, `X_e`) -/

/-- Nothing of the function encoder is discarded. -/
theorem discarded_function (m : Moment) : m.discarded .function = 0 := by
  unfold Moment.discarded
  split
  case h_5 => rfl
  all_goals contradiction

/-- Nothing of the tuning encoder is discarded while TX and LOCK are 0: a SETTX 1 or SETLOCK 1 would show after it. -/
theorem discarded_tuning_of_quiet {a : Arrival} {s t : State} (h : perform a s = .next t)
    (hq : Moment.quiet ⟨a, s, t⟩) : Moment.discarded .tuning ⟨a, s, t⟩ = 0 := by
  obtain ⟨htx, hlock, htx', hlock'⟩ := hq
  by_cases hw : ∀ i, operationOf a = some i → ¬ WritesCounter i
  · exact (no_accounts (m := ⟨a, s, t⟩) hw .tuning).2.1
  · push Not at hw
    obtain ⟨i, hop, hi⟩ := hw
    cases hi with
    | poll p1 p0 => simp_all [Moment.discarded]
    | drain e => cases e <;> simp_all [Moment.discarded]
    | settx =>
      obtain ⟨ok, rfl⟩ := perform_effect h hop nofun
      rw [settx_eq] at htx'
      cases htx'
    | setlock =>
      obtain ⟨ok, rfl⟩ := perform_effect h hop nofun
      rw [setlock_eq] at hlock'
      cases hlock'

/-! ## The accounts of a run -/

@[simp] theorem total_nil (f : Moment → Int) : total f [] = 0 := rfl

@[simp] theorem total_cons (f : Moment → Int) (m : Moment) (l : List Moment) : total f (m :: l) = f m + total f l := by
  simp [total]

theorem total_eq_zero {f : Moment → Int} {l : List Moment} (h : ∀ m ∈ l, f m = 0) : total f l = 0 :=
  List.sum_eq_zero (by simpa using h)

/-- The accounts of a run from s to u balance modulo n: modulo 0, this is equality. -/
def Accounts (n : Int) (e : Encoder) (s : State) (ms : List Moment) (u : State) : Prop :=
  total (Moment.drained e) ms + (u.cnt e).toInt + total (Moment.discarded e) ms ≡
    total (Moment.produced e) ms + (s.cnt e).toInt [ZMOD n]

theorem accounts_zero_iff {e : Encoder} {s u : State} {ms : List Moment} : Accounts 0 e s ms u ↔
    total (Moment.drained e) ms + (u.cnt e).toInt + total (Moment.discarded e) ms =
      total (Moment.produced e) ms + (s.cnt e).toInt := Int.modEq_zero_iff

theorem accounts_nil (n : Int) (e : Encoder) (s : State) : Accounts n e s [] s := by simp [Accounts, Int.ModEq.refl]

/-- The counts in between cancel. -/
theorem Accounts.cons {n : Int} {e : Encoder} {m : Moment} {ms : List Moment} {u : State}
    (hm : Accounts n e m.before [m] m.after) (hms : Accounts n e m.after ms u) : Accounts n e m.before (m :: ms) u := by
  refine Int.ModEq.add_right_cancel' (m.after.cnt e).toInt ?_
  convert! Int.ModEq.add hms hm using 1 <;> simp only [total_cons, total_nil] <;> ring

/-- Where the accounts of every moment balance, those of the run do. -/
theorem accounts_run {n : Int} {e : Encoder} (l : List Arrival) (s : State)
    (h : ∀ m ∈ trail l s, Accounts n e m.before [m] m.after) : Accounts n e s (trail l s) (runAll l s) := by
  revert h
  refine trail_runAll_induction
    (motive := fun s ms u => (∀ m ∈ ms, Accounts n e m.before [m] m.after) → Accounts n e s ms u)
    (fun s _ => accounts_nil n e s) ?_ l s
  intro a s t ms u _ ih h
  obtain ⟨hm, hms⟩ := List.forall_mem_cons.mp h
  exact hm.cons (ih hms)

/-- Wrapping is invisible modulo 2^32. -/
theorem Moment.Balanced.accounts {e : Encoder} {m : Moment} (h : m.Balanced e) :
    Accounts (2 ^ 32) e m.before [m] m.after := by
  have hmod := Int.bmod_emod (x := m.produced e + (m.before.cnt e).toInt) (m := 2 ^ 32)
  rw [← h] at hmod
  simpa [Accounts, Int.ModEq] using hmod

/-- Where the counter does not wrap, the accounts balance exactly. -/
theorem Moment.Balanced.accounts_exact {e : Encoder} {m : Moment} (h : m.Balanced e) (hw : m.noWrap e) :
    Accounts 0 e m.before [m] m.after := by
  obtain ⟨hlo, hhi⟩ := hw
  have hexact := Int.bmod_eq_of_le (n := m.produced e + (m.before.cnt e).toInt) (m := 2 ^ 32)
    (by omega) (by omega)
  rw [← h] at hexact
  simpa [accounts_zero_iff] using hexact

/-- Without a cycle of reset, the accounts of every moment balance. -/
theorem balanced_of_mem_trail {l : List Arrival} {s : State} {m : Moment} (hm : m ∈ trail l s)
    (hr : m.arrival ≠ .resetCycle) (e : Encoder) : m.Balanced e :=
  perform_balanced (perform_of_mem_trail l s m hm) hr e

/-- Settles O31: the balance of each moment, added up along the run. -/
theorem drainConservation : Obligations.DrainConservation := by
  unfold Obligations.DrainConservation
  intro l s e hl
  have hb (m) (hm : m ∈ trail l s) : m.Balanced e :=
    balanced_of_mem_trail hm (fun hr => hl (hr ▸ arrival_mem_of_mem_trail hm)) e
  refine ⟨accounts_run l s fun m hm => (hb m hm).accounts, total_eq_zero fun m _ => discarded_function m, ?quiet,
    ?noWrap, by cases e <;> rfl⟩
  case quiet =>
    intro hq
    exact total_eq_zero fun m hm => discarded_tuning_of_quiet (perform_of_mem_trail l s m hm) (hq m hm)
  case noWrap =>
    intro hw
    exact accounts_zero_iff.mp (accounts_run l s fun m hm => (hb m hm).accounts_exact (hw m hm))

/-! ## Transmitting (R109) -/

theorem ofInt_eq_of_modEq {a b : Int} (h : a ≡ b [ZMOD 2 ^ 32]) : (BitVec.ofInt 32 a : Word) = BitVec.ofInt 32 b := by
  apply BitVec.eq_of_toInt_eq
  rw [BitVec.toInt_ofInt, BitVec.toInt_ofInt, ← Int.emod_bmod a, ← Int.emod_bmod b]
  exact congrArg (Int.bmod · _) h

theorem drained_of_no_drain {m : Moment} {e : Encoder} (h : operationOf m.arrival ≠ some (.drain e)) :
    m.drained e = 0 := by
  unfold Moment.drained
  split
  · next e' hop => exact if_neg fun (he : e' = e) => h (he ▸ hop)
  · rfl

/-- The counter of the function encoder, from 0 and not drained, holds the sum of its results modulo 2^32. -/
theorem cnt1_of_undrained {l : List Arrival} {s : State} (h0 : s.cnt1 = 0)
    (hr : ∀ m ∈ trail l s, m.arrival ≠ .resetCycle)
    (hd : ∀ m ∈ trail l s, operationOf m.arrival ≠ some (.drain .function)) :
    (runAll l s).cnt1 = BitVec.ofInt 32 (total (Moment.produced .function) (trail l s)) := by
  have hacc : Accounts (2 ^ 32) .function s (trail l s) (runAll l s) :=
    accounts_run l s fun m hm => (balanced_of_mem_trail hm (hr m hm) .function).accounts
  have hdrained : total (Moment.drained .function) (trail l s) = 0 :=
    total_eq_zero fun m hm => drained_of_no_drain (hd m hm)
  have hdiscarded : total (Moment.discarded .function) (trail l s) = 0 :=
    total_eq_zero fun m _ => discarded_function m
  rw [Accounts, hdrained, hdiscarded, Int.zero_add, Int.add_zero, cnt_function, cnt_function, h0] at hacc
  rw [← BitVec.ofInt_toInt (x := (runAll l s).cnt1)]
  exact ofInt_eq_of_modEq (by simpa using hacc)

/-- Settles O32: the tuning encoder is suppressed at the end, and the function encoder's accounts are its results. -/
theorem transmitSuppressesTuningOnly : Obligations.TransmitSuppressesTuningOnly := by
  unfold Obligations.TransmitSuppressesTuningOnly
  intro l s htx h0 hl
  have hend : (runAll l s).tx = true := runAll_of_trail (P := fun s => s.tx = true) l s htx fun m hm _ => (hl m hm).1
  have hr (m) (hm : m ∈ trail l s) : m.arrival ≠ .resetCycle := by
    intro ha
    have hafter := (hl m hm).1
    have hp := perform_of_mem_trail l s m hm
    rw [ha, perform, Host.Outcome.next.injEq] at hp
    rw [← hp] at hafter
    cases hafter
  refine ⟨⟨_, exec_eq_next _ _, ?_⟩, _, exec_eq_next _ _, ?_⟩
  · simp [effect, hend]
  · simp [effect, cnt1_of_undrained h0 hr fun m hm => (hl m hm).2]

/-! ## The held decoder (R112) -/

theorem effect_held (i : Instr) {s : State} (hs : s.suppressed .tuning = true) (hc : s.cnt0 = 0) :
    (effect i s).dec0 = s.dec0 ∧ (effect i s).cnt0 = 0 := by
  by_cases hi : ∃ p1 p0, i = .poll p1 p0
  · obtain ⟨p1, p0, rfl⟩ := hi
    exact poll_suppressed hs p1 p0
  · have hi : ∀ p1 p0, i ≠ .poll p1 p0 := fun p1 p0 h => hi ⟨p1, p0, h⟩
    exact ⟨(effect_encoder_frame i s .tuning).1 hi, effect_keeps_cnt_zero (e := .tuning) hi hc⟩

/-- Under suppression every arrival but a cycle of reset holds the tuning decoder, its count 0. -/
theorem perform_held {a : Arrival} {s t : State} (h : perform a s = .next t) (hr : a ≠ .resetCycle)
    (hs : s.suppressed .tuning = true) (hc : s.cnt0 = 0) : t.dec0 = s.dec0 ∧ t.cnt0 = 0 := by
  obtain ⟨i, ok, -, rfl⟩ | ⟨ok, -, rfl⟩ | ⟨-, -, rfl⟩ | ⟨ha, -⟩ := perform_next_cases h
  · exact effect_held (s := { s with timerOk := ok }) i hs hc
  · exact ⟨rfl, hc⟩
  · exact ⟨rfl, hc⟩
  · exact absurd ha hr

/-- Settles O33: each moment of the suppression holds the decoder, and R_CW_FINAL with p = 3 is a clockwise step. -/
theorem suppressionHoldsDecoder : Obligations.SuppressionHoldsDecoder := by
  unfold Obligations.SuppressionHoldsDecoder
  refine ⟨?held, ?resumes⟩
  case held =>
    intro l s hc hl
    refine runAll_of_trail (P := fun u => u.dec0 = s.dec0 ∧ u.cnt0 = 0) l s ⟨rfl, hc⟩ ?_
    rintro m hm ⟨hdec, hcnt⟩
    obtain ⟨hs, hr⟩ := hl m hm
    obtain ⟨hdec', hcnt'⟩ := perform_held (perform_of_mem_trail l s m hm) hr hs hcnt
    exact ⟨hdec'.trans hdec, hcnt'⟩
  case resumes =>
    intro s t p1 hs hd h
    obtain rfl := exec_eq_next_iff.mp h
    have hstep : decoder s.dec0 3 = (.rStart, .cw) := by rw [hd]; rfl
    rw [suppressed_tuning] at hs
    rw [effect, poll_eq, hs, hstep]
    exact ⟨rfl, rfl⟩

end Sys2Proof.Machine

/-! PROOF. The rescale of a sample (R130, R131), by its exact value `scale_toNat`. -/

namespace Sys2Proof.Machine

/-- Settles O36, by `scale_toNat`: WF keeps MID plus the quotient within the 16 bits. -/
theorem scaleIsExact : Obligations.ScaleIsExact := by
  unfold Obligations.ScaleIsExact
  exact scale_toNat

theorem scale_mid (c : Params) : scale c c.mid = c.mid := by
  have hs := scale_toNat c c.mid
  rw [Int.sub_self, Int.zero_tdiv, Int.zero_add, Int.ofNat_inj] at hs
  exact BitVec.eq_of_toNat_eq hs

theorem scale_of_atten_one {c : Params} (h : c.atten = 1) (raw : Sample) : scale c raw = raw := by
  have hs := scale_toNat c raw
  rw [h, Int.ofNat_one, Int.tdiv_one, Int.sub_add_cancel, Int.ofNat_inj] at hs
  exact BitVec.eq_of_toNat_eq hs

/-- A greater raw value is no less after the rescale, since division by a positive number is monotone. -/
theorem scale_mono (c : Params) {raw raw' : Sample} (h : raw ≤ raw') : scale c raw ≤ scale c raw' := by
  have hatten : (0 : Int) < c.atten := Int.natCast_pos.mpr c.one_le_atten
  have hdiff : (raw.toNat : Int) - c.mid.toNat ≤ (raw'.toNat : Int) - c.mid.toNat := by
    rw [BitVec.le_def] at h
    omega
  have hquot := Int.tdiv_le_tdiv hatten hdiff
  have hs := scale_toNat c raw
  have hs' := scale_toNat c raw'
  rw [BitVec.le_def]
  omega

/-- Below MID the distance from MID is divided rounding down, so the result is rounded up toward MID (R131). -/
theorem scale_toNat_of_le_mid (c : Params) {raw : Sample} (h : raw ≤ c.mid) :
    (scale c raw).toNat = c.mid.toNat - (c.mid.toNat - raw.toNat) / c.atten := by
  have hle := BitVec.le_def.mp h
  have hquot : ((raw.toNat : Int) - c.mid.toNat).tdiv c.atten = -((c.mid.toNat - raw.toNat) / c.atten : Nat) := by
    rw [Int.ofNat_tdiv, ← Int.neg_tdiv, Int.ofNat_sub hle, Int.neg_sub]
  have hs := scale_toNat c raw
  omega

/-- Settles O37, clause by clause from `scale_toNat` and `scale_toNat_between`. -/
theorem scaleProperties : Obligations.ScaleProperties := by
  unfold Obligations.ScaleProperties
  intro c raw raw'
  obtain ⟨hlo, hhi⟩ := scale_toNat_between c raw
  refine ⟨?above, ?below, scale_le_wrap c, scale_mid c, fun h => scale_of_atten_one h raw, scale_mono c,
    fun h => scale_toNat_of_le_mid c (BitVec.le_of_lt h)⟩
  case above =>
    intro h
    simp only [BitVec.le_def] at h ⊢
    omega
  case below =>
    intro h
    simp only [BitVec.le_def] at h ⊢
    omega

end Sys2Proof.Machine

/-! PROOF. The operations of the envelope half, each as one update of the state: ETICK (R132, R133), TONE (R139), START
(R140) and STOP (R141), with their words. -/

namespace Sys2Proof.Machine

/-! ## The sample and the next state of a tick, by the envelope state -/

theorem toNat_63_sub (i : BitVec 6) : (63 - i).toNat = 63 - i.toNat := by bv_omega

theorem tickSample_idle (c : Params) (i : BitVec 6) : tickSample c .idle i = c.mid := rfl

theorem tickSample_attack (c : Params) (i : BitVec 6) : tickSample c .attack i = scale c c.attackTable[i.toNat] := rfl

theorem tickSample_sustain (c : Params) {i : BitVec 6} (h : i.toNat < 16) :
    tickSample c .sustain i = scale c c.sustainTable[i.toNat] := by rw [tickSample, romS, dif_pos h]

theorem tickSample_release (c : Params) (i : BitVec 6) :
    tickSample c .release i = scale c c.attackTable[63 - i.toNat] := by
  simp only [tickSample, romA, toNat_63_sub]

theorem nextEnvelope_idle (t : Bool) (i : BitVec 6) :
    nextEnvelope t .idle i = (if t then .attack else .idle, if t then 0 else i) := by cases t <;> rfl

theorem nextEnvelope_attack (t : Bool) (i : BitVec 6) :
    nextEnvelope t .attack i = (if i = 63 then .sustain else .attack, if i = 63 then 0 else i + 1) := by
  rw [nextEnvelope]
  split <;> rfl

theorem nextEnvelope_sustain (t : Bool) (i : BitVec 6) :
    nextEnvelope t .sustain i =
      (if i = 15 ∧ t = false then .release else .sustain, if i = 15 then 0 else i + 1) := by
  rw [nextEnvelope]
  split
  · next h => cases t <;> simp [h]
  · next h => rw [if_neg fun hi => h hi.1]

theorem nextEnvelope_release (t : Bool) (i : BitVec 6) :
    nextEnvelope t .release i = (if i = 63 then .idle else .release, if i = 63 then 0 else i + 1) := by
  rw [nextEnvelope]
  split <;> rfl

/-! ## ETICK -/

/-- An armed ETICK as one update, from the sample and the next state of its tick (R133). -/
theorem exec_etick_armed {s : State} (ha : s.armed = true) {env env' : Env} {i : BitVec 6} {v : Sample}
    (he : s.env = env) (hn : nextEnvelope s.tone env s.idx = (env', i))
    (hv : tickSample Config.params env s.idx = v) :
    exec .etick s = .next { s with env := env', idx := i, duty := v, samples := s.samples ++ [v] } := by
  rw [exec_eq_next, effect, etick_armed s _ ha, tick_eq, he, hn, hv]

/-- Settles O38, by the sample and the next state of each envelope state. -/
theorem etickWalksTables : Obligations.EtickWalksTables := by
  unfold Obligations.EtickWalksTables
  refine ⟨?idle, ?attack, ?sustain, ?release, rfl, decodeCmd_event (.inr rfl)⟩
  case idle => exact fun s ha he => exec_etick_armed ha he (nextEnvelope_idle _ _) (tickSample_idle _ _)
  case attack => exact fun s ha he => exec_etick_armed ha he (nextEnvelope_attack _ _) (tickSample_attack _ _)
  case sustain => exact fun s h ha he => exec_etick_armed ha he (nextEnvelope_sustain _ _) (tickSample_sustain _ h)
  case release => exact fun s ha he => exec_etick_armed ha he (nextEnvelope_release _ _) (tickSample_release _ _)

/-! ## TONE, START and STOP -/

/-- An operand field that is not 0 makes the word of an operation without operand illegal (R77 (c)). -/
theorem decodeCmd_argNotZero {w : Byte} (hop : NoOperandOp w) (harg : argField w ≠ 0) :
    decodeCmd w = .error .argNotZero := decodeCmd_eq_error_iff.mpr ⟨hop, harg⟩

/-- Settles O47: the effect of TONE is the latch and the response, in every state. -/
theorem toneWritesLatch : Obligations.ToneWritesLatch := by
  unfold Obligations.ToneWritesLatch
  exact ⟨fun v s => exec_eq_next (.tone v) s, decodeCmd_encode (i := .tone false) rfl,
    decodeCmd_encode (i := .tone true) rfl, fun w hop => decodeCmd_argHighBits (.inr (.inl hop))⟩

/-- Settles O48, by the three outcomes of `start_eq`. -/
theorem startArmsOnSuccess : Obligations.StartArmsOnSuccess := by
  unfold Obligations.StartArmsOnSuccess
  refine ⟨?armed, ?granted, ?denied, decodeCmd_encode (i := .start) rfl,
    fun w hop => decodeCmd_argNotZero (.inr (.inl hop))⟩
  case armed =>
    intro s ha
    rw [exec_eq_next, effect, start_eq, if_pos ha]
  case granted | denied =>
    intro s ha hok
    refine ⟨_, exec_eq_next .start s, ?_⟩
    simp [effect, start_eq, ha, hok, State.SameBlock]

/-- Settles O51: the effect of STOP is its update in every state. -/
theorem stopResetsEnvelope : Obligations.StopResetsEnvelope := by
  unfold Obligations.StopResetsEnvelope
  exact ⟨exec_eq_next .stop, decodeCmd_encode (i := .stop) rfl,
    fun w hop => decodeCmd_argNotZero (.inr (.inr hop))⟩

end Sys2Proof.Machine

/-! PROOF. The keyed sequence (R135): a keyed run passes each envelope state's table from its first entry to its last,
and the passes are strung together by the latch values at the ticks that sample it. -/

namespace Sys2Proof.Machine

/-! ## One tick of a keyed run -/

/-- An armed state that stands at entry `idx` of `env`'s table, with `out` as its history. -/
structure State.AtEntry (s : State) (env : Env) (idx : BitVec 6) (out : List Sample) : Prop where
  armed : s.armed = true
  env : s.env = env
  idx : s.idx = idx
  samples : s.samples = out

section
variable {f : Nat → Bool} {s : State} {n : Nat} {env env' : Env} {idx : BitVec 6} {out : List Sample}

/-- One more tick of an armed keyed run, after a TONE of the latch value. -/
theorem keyedRun_succ (h : (keyedRun f n s).armed = true) :
    keyedRun f (n + 1) s = (effect (.tone (f n)) (keyedRun f n s)).tick Config.params :=
  etick_armed (effect (.tone (f n)) (keyedRun f n s)) Config.params h

theorem State.AtEntry.tick (h : (keyedRun f n s).AtEntry env idx out) :
    (keyedRun f (n + 1) s).AtEntry (nextEnvelope (f n) env idx).1 (nextEnvelope (f n) env idx).2
      (out ++ [tickSample Config.params env idx]) := by
  obtain ⟨ha, rfl, rfl, rfl⟩ := h
  rw [keyedRun_succ ha, tick_eq]
  exact ⟨ha, rfl, rfl, rfl⟩

theorem State.AtEntry.tick_duty (h : (keyedRun f n s).AtEntry env idx out) :
    (keyedRun f (n + 1) s).duty = tickSample Config.params env idx := by
  obtain ⟨ha, rfl, rfl, -⟩ := h
  rw [keyedRun_succ ha, tick_eq]
  rfl

/-! ## A pass of one envelope state through its table -/

/-- The last index of an envelope state's table; the one tick of IDLE counts as a table of one entry (R133). -/
def Env.lastIndex : Env → Nat
  | .idle => 0
  | .attack => 63
  | .sustain => 15
  | .release => 63

/-- The samples of the first `m` entries of an envelope state's table. -/
def entrySamples (c : Params) (env : Env) (m : Nat) : List Sample :=
  (List.range m).map fun i => tickSample c env (BitVec.ofNat 6 i)

theorem entrySamples_succ (c : Params) (env : Env) (m : Nat) :
    entrySamples c env (m + 1) = entrySamples c env m ++ [tickSample c env (BitVec.ofNat 6 m)] := by
  simp [entrySamples, List.range_succ]

theorem ofNat_ne_of_lt {i m : Nat} (h : i < m) (hm : m < 64) : BitVec.ofNat 6 i ≠ BitVec.ofNat 6 m := by bv_omega

/-- Before the last entry a tick goes on to the next one, whatever the latch. -/
theorem nextEnvelope_ofNat {i : Nat} (h : i < env.lastIndex) (t : Bool) :
    nextEnvelope t env (BitVec.ofNat 6 i) = (env, BitVec.ofNat 6 (i + 1)) := by
  rw [BitVec.ofNat_add]
  cases env with
  | idle => exact absurd h (Nat.not_lt_zero i)
  | attack | release => exact if_neg (ofNat_ne_of_lt (m := 63) h (by decide))
  | sustain => exact if_neg (ofNat_ne_of_lt (m := 15) h (by decide))

theorem State.AtEntry.walk (h : (keyedRun f n s).AtEntry env 0 out) {m : Nat} (hm : m ≤ env.lastIndex) :
    (keyedRun f (n + m) s).AtEntry env (BitVec.ofNat 6 m) (out ++ entrySamples Config.params env m) := by
  induction m with
  | zero => simpa [entrySamples] using h
  | succ m ih =>
    have htick := (ih (Nat.le_of_succ_le hm)).tick
    rwa [nextEnvelope_ofNat hm, List.append_assoc, ← entrySamples_succ] at htick

/-- From its first entry a keyed run passes the whole table of its envelope state, and the tick of the last entry leads
on. -/
theorem State.AtEntry.pass (h : (keyedRun f n s).AtEntry env 0 out)
    (hlast : nextEnvelope (f (n + env.lastIndex)) env (BitVec.ofNat 6 env.lastIndex) = (env', 0)) :
    (keyedRun f (n + (env.lastIndex + 1)) s).AtEntry env' 0
      (out ++ entrySamples Config.params env (env.lastIndex + 1)) := by
  have htick := (h.walk (Nat.le_refl _)).tick
  rwa [hlast, List.append_assoc, ← entrySamples_succ] at htick

end

/-! ## The samples of a pass are the scaled table -/

theorem attackSamples_length (c : Params) : (attackSamples c).length = 64 := by simp [attackSamples]

theorem sustainSamples_length (c : Params) : (sustainSamples c).length = 16 := by simp [sustainSamples]

theorem entrySamples_attack (c : Params) : entrySamples c .attack 64 = attackSamples c := by
  apply List.ext_getElem
  · simp [entrySamples, attackSamples]
  · intro i hi _
    have hlt : i < 64 := by simpa [entrySamples] using hi
    simp [entrySamples, attackSamples, tickSample_attack, Nat.mod_eq_of_lt hlt]

theorem entrySamples_sustain (c : Params) : entrySamples c .sustain 16 = sustainSamples c := by
  apply List.ext_getElem
  · simp [entrySamples, sustainSamples]
  · intro i hi _
    have hlt : i < 16 := by simpa [entrySamples] using hi
    have hmod : i % 64 = i := Nat.mod_eq_of_lt (by omega)
    have hidx : (BitVec.ofNat 6 i).toNat < 16 := by simpa [hmod] using hlt
    simp [entrySamples, sustainSamples, tickSample_sustain c hidx, hmod]

theorem entrySamples_release (c : Params) : entrySamples c .release 64 = (attackSamples c).reverse := by
  apply List.ext_getElem
  · simp [entrySamples, attackSamples]
  · intro i hi _
    have hlt : i < 64 := by simpa [entrySamples] using hi
    simp [entrySamples, attackSamples, tickSample_release, Nat.mod_eq_of_lt hlt]

/-! ## The keyed sequence -/

section
variable {f : Nat → Bool} {s : State} {n k : Nat} {out : List Sample}

theorem State.AtEntry.pass_attack (h : (keyedRun f n s).AtEntry .attack 0 out) :
    (keyedRun f (n + 64) s).AtEntry .sustain 0 (out ++ attackSamples Config.params) := by
  rw [← entrySamples_attack]
  exact h.pass rfl

/-- At the end of a sustain cycle the latch decides between another cycle and the release (R134). -/
theorem State.AtEntry.pass_sustain (h : (keyedRun f n s).AtEntry .sustain 0 out) :
    (keyedRun f (n + 16) s).AtEntry (if f (n + 15) then .sustain else .release) 0
      (out ++ sustainSamples Config.params) := by
  rw [← entrySamples_sustain]
  exact h.pass rfl

theorem State.AtEntry.pass_release (h : (keyedRun f n s).AtEntry .release 0 out) :
    (keyedRun f (n + 64) s).AtEntry .idle 0 (out ++ (attackSamples Config.params).reverse) := by
  rw [← entrySamples_release]
  exact h.pass rfl

/-- While the latch is 1 at the end of each of them, sustain cycles follow each other. -/
theorem State.AtEntry.sustain_cycles (h : (keyedRun f n s).AtEntry .sustain 0 out)
    (hf : ∀ j, j < k → f (n + 16 * j + 15) = true) :
    (keyedRun f (n + 16 * k) s).AtEntry .sustain 0
      (out ++ (List.replicate k (sustainSamples Config.params)).flatten) := by
  induction k with
  | zero => simpa using h
  | succ k ih =>
    have hpass := (ih fun j hj => hf j (Nat.lt_succ_of_lt hj)).pass_sustain
    rwa [hf k (Nat.lt_succ_self k), if_pos rfl, List.append_assoc, ← List.flatten_concat,
      ← List.replicate_succ'] at hpass

end

theorem keyedSamples_length (c : Params) (k : Nat) : (keyedSamples c k).length = 64 + 16 * k + 64 := by
  simp [keyedSamples, attackSamples_length, sustainSamples_length, Nat.mul_comm, Nat.add_assoc]

/-- Settles O41: the tick of IDLE, then the passes of attack, of K sustain cycles and of release, then IDLE's again. -/
theorem keyedSequence : Obligations.KeyedSequence := by
  unfold Obligations.KeyedSequence
  intro s f k ha he hk hdown hheld hup
  obtain ⟨k, rfl⟩ := Nat.exists_eq_add_of_le' hk
  have hstart : (keyedRun f 0 s).AtEntry .idle s.idx s.samples := ⟨ha, he, rfl, rfl⟩
  have hattack : (keyedRun f 1 s).AtEntry .attack 0 (s.samples ++ [Config.params.mid]) := by
    have htick := hstart.tick
    rwa [nextEnvelope_idle, hdown] at htick
  have hcycles := hattack.pass_attack.sustain_cycles (k := k) fun j hj => by
    rw [show 1 + 64 + 16 * j + 15 = 64 + 16 * (j + 1) by omega]
    exact hheld (j + 1) (Nat.le_add_left 1 j) (Nat.succ_lt_succ hj)
  have hrelease := hcycles.pass_sustain
  rw [show 1 + 64 + 16 * k + 15 = 64 + 16 * (k + 1) by omega, hup] at hrelease
  have hidle := hrelease.pass_release
  rw [show 1 + 64 + 16 * k + 16 + 64 = 1 + (128 + 16 * (k + 1)) by omega] at hidle
  refine ⟨?_, keyedSamples_length _ _, hidle.env, hidle.tick_duty, ?_⟩
  · simp [hidle.samples, keyedSamples, List.replicate_succ']
  · rw [hidle.tick.samples, hidle.samples, tickSample_idle]

end Sys2Proof.Machine

/-! PROOF. The operations of block control: NOP (R170) and RDSTAT (R171), each a response alone, with their words. -/

namespace Sys2Proof.Machine

/-- The words below 0x10 but 0 are NOP's with an operand field that is not 0 (R71). -/
theorem nopOp_argField_ne_zero {w : Byte} (hlo : 0x01 ≤ w.toNat) (hhi : w.toNat ≤ 0x0F) :
    opField w = 0x0 ∧ argField w ≠ 0 := by
  simp only [ne_eq, ← BitVec.toNat_inj, opField_toNat, argField_toNat, BitVec.ofNat_eq_ofNat, BitVec.toNat_ofNat]
  omega

/-- Settles O54: the effect of NOP is the response 0 in every state. -/
theorem nopAnswersZero : Obligations.NopAnswersZero := by
  unfold Obligations.NopAnswersZero
  refine ⟨exec_eq_next .nop, decodeCmd_encode (i := .nop) rfl, fun w hlo hhi => ?_⟩
  obtain ⟨hop, harg⟩ := nopOp_argField_ne_zero hlo hhi
  exact decodeCmd_argNotZero (.inl hop) harg

/-- Settles O55: the effect of RDSTAT is the selected status word as the response, in every state. -/
theorem rdstatAnswersStatus : Obligations.RdstatAnswersStatus := by
  unfold Obligations.RdstatAnswersStatus
  exact ⟨exec_eq_next (.rdstat .status0), exec_eq_next (.rdstat .status1),
    decodeCmd_encode (i := .rdstat .status0) rfl, decodeCmd_encode (i := .rdstat .status1) rfl,
    fun w hop => decodeCmd_argHighBits (.inr (.inr (.inr (.inr hop))))⟩

end Sys2Proof.Machine

/-! PROOF. Reset (R230, R231): the value of every element and of the status words, and what a cycle of reset does. -/

namespace Sys2Proof.Machine

/-! ## The status words at reset -/

theorem fieldAt_zero (n pos : Nat) : fieldAt 0#n pos = 0 := by
  rw [fieldAt, BitVec.setWidth_zero, BitVec.zero_shiftLeft]
  rfl

/-- At reset DUTY is the one field of STATUS0 that is not 0 (R231). -/
theorem status0_resetWith (c : Params) : (State.resetWith c).status0 = fieldAt c.mid 16 := by
  simp only [State.status0, State.resetWith, Env.bits, BitVec.ofBool_false, BitVec.ofNat_eq_ofNat, fieldAt_zero,
    BitVec.zero_or]

/-- At reset both decoders are in R_START, whose number is 0 (R21, R231). -/
theorem status1_resetWith (c : Params) : (State.resetWith c).status1 = 0 := by
  simp only [State.status1, State.resetWith, DecState.bits, BitVec.ofNat_eq_ofNat, fieldAt_zero, BitVec.zero_or]

/-- Settles O1: the elements are the fields of the reset state, and the status words show the zeros among them. -/
theorem resetValues : Obligations.ResetValues := by
  unfold Obligations.ResetValues
  exact ⟨rfl, rfl, rfl, rfl, rfl, rfl, rfl, rfl, rfl, rfl, rfl, rfl, rfl, rfl,
    status0_resetWith Config.params, status1_resetWith Config.params⟩

/-! ## A cycle of reset -/

theorem perform_resetCycle (s : State) : perform .resetCycle s = .next (s.resetBlock Config.params) := rfl

/-- The block's part of the state after a cycle of reset is the reset state's, whatever it was before. -/
theorem sameBlock_resetBlock (s : State) : State.reset.SameBlock (s.resetBlock Config.params) :=
  ⟨rfl, rfl, rfl, rfl, rfl, rfl, rfl, rfl, rfl, rfl, rfl, rfl, rfl, rfl⟩

theorem arrivals_in_reset {p : PortCycle} (hr : p.rstN = false) : p.arrivals = [.resetCycle] := by
  rw [PortCycle.arrivals, hr, if_neg Bool.false_ne_true]

/-- Settles O2: a cycle of reset gives the reset block, and is all that a clock cycle with rst_n low performs. -/
theorem resetCycleResets : Obligations.ResetCycleResets := by
  unfold Obligations.ResetCycleResets
  exact ⟨fun s => ⟨_, perform_resetCycle s, sameBlock_resetBlock s, rfl, rfl, rfl⟩, fun _ => arrivals_in_reset⟩

end Sys2Proof.Machine

/-! PROOF. The invariants INV2 to INV6 (R38) at reset and along a step. -/

namespace Sys2Proof.Machine

/-- Settles O3, by `reset_inv`: the base case of the runs from reset. -/
theorem resetMeetsInvariants : Obligations.ResetMeetsInvariants := by
  unfold Obligations.ResetMeetsInvariants
  exact reset_inv

theorem State.Inv.takeArrival {s : State} (h : s.Inv) : s.takeArrival.Inv := by
  rw [takeArrival_eq]
  exact h.setUnread

/-- Settles O4: taking an arrival touches nothing the invariants read, and performing it keeps them. -/
theorem stepKeepsInvariants : Obligations.StepKeepsInvariants := by
  unfold Obligations.StepKeepsInvariants
  exact fun s t h hstep => perform_keeps_inv h.takeArrival hstep

end Sys2Proof.Machine

/-! PROOF. Decoding and encoding are inverse (R71 to R79): the trace reader beside the command port, and each word by
its two fields. -/

namespace Sys2Proof

/-! ## The trace reader on a command's `op` -/

/-- What the trace reader makes of the command port's reading of a word (R79, R82). -/
def TraceReading.ofCommand : Except IllegalWord Instr → TraceReading
  | .ok i => .operation i
  | .error r => .illegal r

/-- The trace reader reads a word with a command's `op` as the command port does. -/
theorem decodeTrace_command {w : Byte} (h : (opField w).toNat < 0x8) :
    decodeTrace w = TraceReading.ofCommand (decodeCmd w) := by
  unfold decodeTrace
  split
  case h_9 => cases decodeCmd w <;> rfl
  all_goals omega

/-- The classes of an `op` field in a trace: the commands, POLL, ETICK and the reserved codes (R78). -/
theorem traceOp_cases (w : Byte) :
    (opField w).toNat < 0x8 ∨ (opField w).toNat = 0x8 ∨ (opField w).toNat = 0x9 ∨ 0xA ≤ (opField w).toNat := by omega

/-- A word the command port accepts has a command's `op`: the others are illegal by clause (a) or (b) of R77. -/
theorem opField_lt_of_decodeCmd_ok {w : Byte} {i : Instr} (h : decodeCmd w = .ok i) : (opField w).toNat < 0x8 := by
  obtain hop | hop | hop | hop := traceOp_cases w
  · exact hop
  · exact nomatch h.symm.trans (decodeCmd_event (.inl (BitVec.eq_of_toNat_eq hop)))
  · exact nomatch h.symm.trans (decodeCmd_event (.inr (BitVec.eq_of_toNat_eq hop)))
  · exact nomatch h.symm.trans (decodeCmd_reserved hop)

theorem decodeTrace_of_decodeCmd_ok {w : Byte} {i : Instr} (h : decodeCmd w = .ok i) :
    decodeTrace w = .operation i := by
  rw [decodeTrace_command (opField_lt_of_decodeCmd_ok h), h]
  rfl

/-- The reader calls a word illegal exactly where it has a command's `op` and the command port rejects it. -/
theorem decodeTrace_eq_illegal_iff {w : Byte} {r : IllegalWord} :
    decodeTrace w = .illegal r ↔ decodeCmd w = .error r ∧ (opField w).toNat ≤ 7 := by
  obtain hop | hop | hop | hop := traceOp_cases w
  · rw [decodeTrace_command hop, and_iff_left (Nat.le_of_lt_succ hop)]
    cases decodeCmd w <;> simp [TraceReading.ofCommand]
  · rw [decodeTrace_poll hop]
    exact iff_of_false nofun (by omega)
  · rw [decodeTrace_etickOp hop]
    refine iff_of_false ?_ (by omega)
    split <;> exact nofun
  · rw [decodeTrace_reserved hop]
    exact iff_of_false nofun (by omega)

/-! ## Decode of encode -/

theorem extractLsb_append_phases (p1 p0 : Phase) :
    (p1 ++ p0 : BitVec 4).extractLsb 3 2 = p1 ∧ (p1 ++ p0 : BitVec 4).extractLsb 1 0 = p0 := by
  revert p1 p0; decide

theorem opField_append (op arg : BitVec 4) : opField (op ++ arg) = op := by revert op arg; decide

theorem argField_append (op arg : BitVec 4) : argField (op ++ arg) = arg := by revert op arg; decide

theorem opField_encode (i : Instr) : opField (encode i) = i.op := opField_append i.op i.arg

theorem argField_encode (i : Instr) : argField (encode i) = i.arg := argField_append i.op i.arg

/-- The word of every operation is read as that operation in a trace (R79). -/
theorem decodeTrace_encode (i : Instr) : decodeTrace (encode i) = .operation i := by
  cases hi : i.isCommand with
  | true => exact decodeTrace_of_decodeCmd_ok (Machine.decodeCmd_encode hi)
  | false =>
    cases i with
    | poll p1 p0 =>
      obtain ⟨h1, h0⟩ := extractLsb_append_phases p1 p0
      rw [decodeTrace_poll (congrArg BitVec.toNat (opField_encode (.poll p1 p0))), argField_encode, Instr.arg, h1, h0]
    | etick => rfl
    | _ => cases hi

/-! ## Encode of decode -/

/-- A word is an operation's if its fields are that operation's. -/
theorem encode_eq_of_fields {i : Instr} {w : Byte} (hop : opField w = i.op) (harg : argField w = i.arg) :
    encode i = w :=
  (eq_iff_fields _ _).mpr ⟨(opField_encode i).trans hop.symm, (argField_encode i).trans harg.symm⟩

/-- Each of the thirteen legal words is the word of the command it is read as. -/
theorem legalWords_encode : ∀ w ∈ legalWords, ∀ i ∈ (decodeCmd w).toOption, encode i = w ∧ i.isCommand = true := by
  decide

theorem encode_of_decodeCmd_ok {w : Byte} {i : Instr} (h : decodeCmd w = .ok i) :
    encode i = w ∧ i.isCommand = true :=
  legalWords_encode w (decodeCmd_eq_ok_iff.mp ⟨i, h⟩) i (by rw [h]; rfl)

theorem phases_append (arg : BitVec 4) : arg.extractLsb 3 2 ++ arg.extractLsb 1 0 = arg := by revert arg; decide

/-- A word the trace reader reads as an operation is the word of that operation (R79). -/
theorem encode_of_decodeTrace_operation {w : Byte} {i : Instr} (h : decodeTrace w = .operation i) : encode i = w := by
  obtain hop | hop | hop | hop := traceOp_cases w
  · rw [decodeTrace_command hop] at h
    cases hw : decodeCmd w with
    | ok j =>
      rw [hw] at h
      cases h
      exact (encode_of_decodeCmd_ok hw).1
    | error r =>
      rw [hw] at h
      cases h
  · rw [decodeTrace_poll hop] at h
    cases h
    exact encode_eq_of_fields (BitVec.eq_of_toNat_eq hop) (phases_append _).symm
  · rw [decodeTrace_etickOp hop] at h
    split at h
    · next harg =>
      cases h
      exact encode_eq_of_fields (BitVec.eq_of_toNat_eq hop) harg
    · cases h
  · rw [decodeTrace_reserved hop] at h
    cases h

end Sys2Proof

namespace Sys2Proof.Machine

/-- Settles O6, by the two readers. -/
theorem decodeOfEncode : Obligations.DecodeOfEncode := by
  unfold Obligations.DecodeOfEncode
  exact fun i => ⟨decodeTrace_encode i, decodeCmd_encode⟩

/-- Settles O7, by the two readers. -/
theorem encodeOfDecode : Obligations.EncodeOfDecode := by
  unfold Obligations.EncodeOfDecode
  exact ⟨fun _ _ => encode_of_decodeTrace_operation, fun _ _ => encode_of_decodeCmd_ok⟩

/-- Settles O10: each word written out is the word of its operation. -/
theorem writtenWordsDecode : Obligations.WrittenWordsDecode := by
  unfold Obligations.WrittenWordsDecode
  exact ⟨decodeTrace_encode .nop, decodeTrace_encode (.drain .function), decodeTrace_encode (.tone true),
    decodeTrace_encode .start, decodeTrace_encode .stop, decodeTrace_encode (.settx true),
    decodeTrace_encode (.setlock false), decodeTrace_encode (.rdstat .status1), decodeTrace_encode (.poll 3 1),
    decodeTrace_encode .etick⟩

end Sys2Proof.Machine

/-! PROOF. The step performs the next arrival (R55, R59), and what it does at an illegal word (R200) and at an ETICK of
the disarmed timer (R82, R208). -/

namespace Sys2Proof.Machine

/-- Settles O13: the arrival is the oldest known one, or a free one, and a word performs the operation it is read as. -/
theorem stepRunsDecodedOperation : Obligations.StepRunsDecodedOperation := by
  unfold Obligations.StepRunsDecodedOperation
  intro s rest
  refine ⟨fun a => step_cons, ?traceWord, ?command, fun l => step_cons, ?timerTick, step_nil⟩
  case traceWord =>
    intro w ok i hs hw
    exact (step_cons hs).trans (performTraceWord_operation hw _)
  case command =>
    intro w ok i hs hw
    exact (step_cons hs).trans (performCommand_ok hw _)
  case timerTick =>
    intro hs ha
    exact (step_cons hs).trans (if_pos ha)

/-- Settles O17: either reader's illegal word performs IllegalCommand, with the level of timer_ok that came with it. -/
theorem illegalCommandSetsIll : Obligations.IllegalCommandSetsIll := by
  unfold Obligations.IllegalCommandSetsIll
  refine ⟨?_, fun w r => decodeTrace_eq_illegal_iff, rfl⟩
  rintro w r ok s a (⟨rfl, hw⟩ | ⟨rfl, hw⟩)
  · exact performCommand_error hw _
  · exact performTraceWord_illegal hw _

/-- Settles O39, by the disarmed tick: recorded where its word is met, and nothing at the port. -/
theorem disarmedTickSkipped : Obligations.DisarmedTickSkipped := by
  unfold Obligations.DisarmedTickSkipped
  have hexec (s : State) (h : s.armed = false) : exec .etick s = .next s.recordNoEvent := by
    rw [exec_eq_next, effect, etick_disarmed s _ h]
  refine ⟨fun s ok h => ?word, hexec, fun s h => ?pulse⟩
  case word => exact (performTraceWord_operation (decodeTrace_encode .etick) _).trans (hexec { s with timerOk := ok } h)
  case pulse => rw [perform, if_neg (ne_true_of_eq_false h)]

end Sys2Proof.Machine

/-! PROOF. The response of each operation (R74, R75) with the error it raises (R203), and the draw TIMER_OK (R16, R140,
R201). -/

namespace Sys2Proof.Machine

/-! ## The three outcomes of a START -/

section
variable (c : Params) {s : State}

theorem start_granted (ha : s.armed = false) (hok : s.timerAnswer = true) : s.start c =
    { s with armed := true, pwmEn := true, duty := c.mid, respValid := true, resp := 1,
             record := s.record ++ [.response 1 none], timerOk := none, draws := s.afterDraw.draws } := by
  simp [start_eq, ha, hok]

theorem start_denied (ha : s.armed = false) (hok : s.timerAnswer = false) : s.start c =
    { s with respValid := true, resp := 0, record := s.record ++ [.response 0 (some .timerUnavailable)],
             timerOk := none, draws := s.afterDraw.draws } := by
  simp [start_eq, ha, hok]

end

/-! ## Responses -/

/-- A command answers on the port and in the record, with no error but a disarmed START's TimerUnavailable. -/
theorem command_answers {i : Instr} (hi : i.isCommand = true) (s : State) :
    (effect i s).respValid = true ∧ ∃ c, (effect i s).record = s.record ++ [.response (effect i s).resp c] ∧
      (c = none ∨ c = some .timerUnavailable ∧ i = .start ∧ s.armed = false ∧ (effect i s).armed = false) := by
  cases i with
  | nop | tone v | stop | rdstat w => exact ⟨rfl, none, rfl, .inl rfl⟩
  | drain e => rw [effect, drain_eq]; exact ⟨rfl, none, rfl, .inl rfl⟩
  | settx v => rw [settx_eq]; exact ⟨rfl, none, rfl, .inl rfl⟩
  | setlock v => rw [setlock_eq]; exact ⟨rfl, none, rfl, .inl rfl⟩
  | start =>
    rw [effect]
    cases ha : s.armed with
    | true => rw [start_armed _ ha]; exact ⟨rfl, none, rfl, .inl rfl⟩
    | false =>
      cases hok : s.timerAnswer with
      | true => rw [start_granted _ ha hok]; exact ⟨rfl, none, rfl, .inl rfl⟩
      | false => rw [start_denied _ ha hok]; exact ⟨rfl, _, rfl, .inr ⟨rfl, rfl, rfl, ha⟩⟩
  | poll p1 p0 | etick => cases hi

/-- An event leaves the response port as it was (log 3). -/
theorem event_keeps_port {i : Instr} (hi : i.isCommand = false) (s : State) :
    (effect i s).respValid = s.respValid ∧ (effect i s).resp = s.resp := by
  cases i with
  | poll p1 p0 => rw [effect, poll_eq]; exact ⟨rfl, rfl⟩
  | etick => rw [effect, State.etick]; split <;> exact ⟨rfl, rfl⟩
  | _ => cases hi

/-- Settles O15, by `exec_eq_next`: a command answers and an event leaves the port. -/
theorem everyOperationCompletes : Obligations.EveryOperationCompletes := by
  unfold Obligations.EveryOperationCompletes
  refine fun i s => ⟨effect i s, exec_eq_next i s, fun hi => ?_, fun hi => event_keeps_port hi s⟩
  obtain ⟨hvalid, c, hrecord, -⟩ := command_answers hi s
  exact ⟨hvalid, c, hrecord⟩

/-- START answers whether the timer is armed after it (R140). -/
theorem start_resp (c : Params) (s : State) : (s.start c).resp = if (s.start c).armed then 1 else 0 := by
  cases ha : s.armed with
  | true => rw [start_armed c ha]; exact (if_pos ha).symm
  | false =>
    cases hok : s.timerAnswer with
    | true => rw [start_granted c ha hok]; rfl
    | false => rw [start_denied c ha hok]; exact (if_neg (ne_true_of_eq_false ha)).symm

/-- Settles O16, by the response each command's update writes. -/
theorem responsePerCommand : Obligations.ResponsePerCommand := by
  unfold Obligations.ResponsePerCommand
  intro i s t h
  obtain rfl := exec_eq_next_iff.mp h
  refine ⟨?drain, ?start, ?rdstat, ?zero⟩
  case drain =>
    rintro e rfl
    exact drain_resp s e
  case start =>
    rintro rfl
    exact start_resp Config.params s
  case rdstat =>
    rintro w rfl
    rfl
  case zero =>
    rintro (rfl | rfl | ⟨v, rfl | rfl | rfl⟩)
    · rfl
    · rfl
    · rfl
    · rw [settx_eq]
    · rw [setlock_eq]

/-- Settles O19: the word is illegal, or it is a command's, whose only error is a disarmed START's. -/
theorem oneErrorPerCommandWord : Obligations.OneErrorPerCommandWord := by
  unfold Obligations.OneErrorPerCommandWord
  intro w ok s t h
  rw [perform] at h
  cases hw : decodeCmd w with
  | error r =>
    rw [performCommand_error hw, Host.Outcome.next.injEq] at h
    subst h
    exact ⟨0, some .illegalCommand, rfl, iff_of_true rfl ⟨r, rfl⟩, nofun⟩
  | ok i =>
    rw [performCommand_ok hw] at h
    obtain rfl := exec_eq_next_iff.mp h
    obtain ⟨hword, hi⟩ := encode_of_decodeCmd_ok hw
    obtain ⟨-, c, hrecord, hc⟩ := command_answers hi { s with timerOk := ok }
    refine ⟨_, c, hrecord, ?_⟩
    obtain rfl | ⟨rfl, rfl, hs, ht⟩ := hc
    · exact ⟨iff_of_false nofun nofun, nofun⟩
    · exact ⟨iff_of_false nofun nofun, fun _ => ⟨hword.symm, hs, ht⟩⟩

/-- Settles O50: the denied START is its answer alone, and a granted one after it arms the timer. -/
theorem timerUnavailableLeavesBlock : Obligations.TimerUnavailableLeavesBlock := by
  unfold Obligations.TimerUnavailableLeavesBlock
  intro s ha hok
  refine ⟨_, exec_eq_next .start s, ?_⟩
  rw [effect, start_denied _ ha hok]
  refine ⟨by simp [State.SameBlock], rfl, rfl, rfl, _, exec_eq_next .start _, ?_⟩
  rw [effect, start_granted _ (by exact ha) rfl]
  exact ⟨rfl, rfl⟩

/-! ## The draw -/

theorem afterDraw_draws (s : State) : s.afterDraw.draws = if s.timerOk.isSome then s.draws else s.draws + 1 := by
  unfold State.afterDraw
  split <;> simp_all

/-- A START from the disarmed state takes the draw, granted or not. -/
theorem start_takes_draw (c : Params) {s : State} (ha : s.armed = false) :
    (s.start c).timerOk = none ∧ (s.start c).draws = s.afterDraw.draws := by
  cases hok : s.timerAnswer with
  | true => rw [start_granted c ha hok]; exact ⟨rfl, rfl⟩
  | false => rw [start_denied c ha hok]; exact ⟨rfl, rfl⟩

/-- The environment's inputs: no operation touches the stimulus, and only a disarmed START the draw. -/
theorem effect_environment_frame (i : Instr) (s : State) :
    (effect i s).stimulus = s.stimulus ∧
      ((i = .start ∧ s.armed = false) ∨ ((effect i s).timerOk = s.timerOk ∧ (effect i s).draws = s.draws)) := by
  cases i with
  | nop | tone v | stop | rdstat w => exact ⟨rfl, .inr ⟨rfl, rfl⟩⟩
  | drain e => rw [effect, drain_eq]; exact ⟨rfl, .inr ⟨rfl, rfl⟩⟩
  | settx v => rw [settx_eq]; exact ⟨rfl, .inr ⟨rfl, rfl⟩⟩
  | setlock v => rw [setlock_eq]; exact ⟨rfl, .inr ⟨rfl, rfl⟩⟩
  | poll p1 p0 => rw [effect, poll_eq]; exact ⟨rfl, .inr ⟨rfl, rfl⟩⟩
  | etick => rw [effect, State.etick]; split <;> exact ⟨rfl, .inr ⟨rfl, rfl⟩⟩
  | start =>
    rw [effect]
    cases ha : s.armed with
    | true => rw [start_armed _ ha]; exact ⟨rfl, .inr ⟨rfl, rfl⟩⟩
    | false =>
      cases hok : s.timerAnswer with
      | true => rw [start_granted _ ha hok]; exact ⟨rfl, .inl ⟨rfl, rfl⟩⟩
      | false => rw [start_denied _ ha hok]; exact ⟨rfl, .inl ⟨rfl, rfl⟩⟩

/-- Settles O49, by `start_takes_draw` and the frame of the environment's inputs. -/
theorem drawUsedOnce : Obligations.DrawUsedOnce := by
  unfold Obligations.DrawUsedOnce
  refine ⟨?fixed, ?free, ?others, ?stimulus⟩
  case fixed =>
    intro s b ha hok
    obtain ⟨hnone, hdraws⟩ := start_takes_draw Config.params ha
    exact ⟨timerAnswer_some s hok, _, exec_eq_next .start s, hnone, hdraws.trans (by simp [afterDraw_draws, hok])⟩
  case free =>
    intro s ha hok
    obtain ⟨hnone, hdraws⟩ := start_takes_draw Config.params ha
    exact ⟨timerAnswer_none s hok, _, exec_eq_next .start s, hnone, hdraws.trans (by simp [afterDraw_draws, hok])⟩
  case others =>
    intro i s t h hne
    obtain rfl := exec_eq_next_iff.mp h
    obtain ⟨-, hdraw⟩ := effect_environment_frame i s
    exact hdraw.resolve_right (not_and_or.mpr hne)
  case stimulus =>
    intro i s t h
    obtain rfl := exec_eq_next_iff.mp h
    exact (effect_environment_frame i s).1

end Sys2Proof.Machine

/-! PROOF. Who writes each element of the block: the encoder half (R21 to R24, R32) and the envelope half (R25 to R30,
R34, R142). -/

namespace Sys2Proof.Machine

/-! ## The encoder half -/

/-- TX and LOCK change only in their own commands (R23, R24). -/
theorem effect_inputs_frame (i : Instr) (s : State) :
    ((∃ v, i = .settx v) ∨ (effect i s).tx = s.tx) ∧ ((∃ v, i = .setlock v) ∨ (effect i s).lock = s.lock) := by
  cases i with
  | nop | tone v | stop | rdstat w => exact ⟨.inr rfl, .inr rfl⟩
  | drain e => rw [effect, drain_eq]; exact ⟨.inr rfl, .inr rfl⟩
  | start =>
    rw [effect, start_eq]
    split
    · exact ⟨.inr rfl, .inr rfl⟩
    · split <;> exact ⟨.inr rfl, .inr rfl⟩
  | settx v => rw [settx_eq]; exact ⟨.inl ⟨v, rfl⟩, .inr rfl⟩
  | setlock v => rw [setlock_eq]; exact ⟨.inr rfl, .inl ⟨v, rfl⟩⟩
  | poll p1 p0 => rw [effect, poll_eq]; exact ⟨.inr rfl, .inr rfl⟩
  | etick => rw [effect, State.etick]; split <;> exact ⟨.inr rfl, .inr rfl⟩

/-- Only a POLL changes a decoder. -/
theorem effect_dec_frame (i : Instr) (s : State) (e : Encoder) :
    (∃ p1 p0, i = .poll p1 p0) ∨ (effect i s).dec e = s.dec e := by
  rw [or_iff_not_imp_left]
  exact fun h => (effect_encoder_frame i s e).1 fun p1 p0 hi => h ⟨p1, p0, hi⟩

/-- Only a POLL, its own DRAIN and the inputs that suppress it change the tuning counter. -/
theorem effect_cnt0_frame (i : Instr) (s : State) :
    ((∃ p1 p0, i = .poll p1 p0) ∨ i = .drain .tuning ∨ i = .settx true ∨ i = .setlock true) ∨
      (effect i s).cnt0 = s.cnt0 := by
  by_cases hi : WritesCounter i
  · cases hi with
    | poll p1 p0 => exact .inl (.inl ⟨p1, p0, rfl⟩)
    | drain e =>
      cases e with
      | tuning => exact .inl (.inr (.inl rfl))
      | function => exact .inr (drain_cnt s .function .tuning)
    | settx => exact .inl (.inr (.inr (.inl rfl)))
    | setlock => exact .inl (.inr (.inr (.inr rfl)))
  · exact .inr ((effect_encoder_frame i s .tuning).2 hi)

/-- Only a POLL and its own DRAIN change the function counter. -/
theorem effect_cnt1_frame (i : Instr) (s : State) :
    ((∃ p1 p0, i = .poll p1 p0) ∨ i = .drain .function) ∨ (effect i s).cnt1 = s.cnt1 := by
  by_cases hi : WritesCounter i
  · cases hi with
    | poll p1 p0 => exact .inl (.inl ⟨p1, p0, rfl⟩)
    | drain e =>
      cases e with
      | tuning => exact .inr (drain_cnt s .tuning .function)
      | function => exact .inl (.inr rfl)
    | settx | setlock => exact .inr rfl
  · exact .inr ((effect_encoder_frame i s .function).2 hi)

/-- Settles O35, by the frame of each element. -/
theorem encoderElementWriters : Obligations.EncoderElementWriters := by
  unfold Obligations.EncoderElementWriters
  intro i s t h
  obtain rfl := exec_eq_next_iff.mp h
  obtain ⟨htx, hlock⟩ := effect_inputs_frame i s
  refine ⟨?decoders, htx.resolve_right, hlock.resolve_right, (effect_cnt0_frame i s).resolve_right,
    (effect_cnt1_frame i s).resolve_right⟩
  rintro (hdec | hdec)
  · exact (effect_dec_frame i s .tuning).resolve_right hdec
  · exact (effect_dec_frame i s .function).resolve_right hdec

/-! ## The envelope half -/

/-- An operation keeps each element of the envelope half unless it is one of the element's writers. -/
structure EnvelopeFrame (i : Instr) (s t : State) : Prop where
  tone : (∃ v, i = .tone v) ∨ t.tone = s.tone
  place : (i = .etick ∨ i = .stop) ∨ (t.env = s.env ∧ t.idx = s.idx)
  switches : (i = .start ∨ i = .stop) ∨ (t.armed = s.armed ∧ t.pwmEn = s.pwmEn)
  duty : (i = .etick ∨ i = .start ∨ i = .stop) ∨ t.duty = s.duty
  samples : (i = .etick ∧ s.armed = true ∧ t.samples = s.samples ++ [t.duty]) ∨ t.samples = s.samples

theorem effect_envelope_frame (i : Instr) (s : State) : EnvelopeFrame i s (effect i s) := by
  cases i with
  | nop | rdstat w => exact ⟨.inr rfl, .inr ⟨rfl, rfl⟩, .inr ⟨rfl, rfl⟩, .inr rfl, .inr rfl⟩
  | drain e => rw [effect, drain_eq]; exact ⟨.inr rfl, .inr ⟨rfl, rfl⟩, .inr ⟨rfl, rfl⟩, .inr rfl, .inr rfl⟩
  | settx v => rw [settx_eq]; exact ⟨.inr rfl, .inr ⟨rfl, rfl⟩, .inr ⟨rfl, rfl⟩, .inr rfl, .inr rfl⟩
  | setlock v => rw [setlock_eq]; exact ⟨.inr rfl, .inr ⟨rfl, rfl⟩, .inr ⟨rfl, rfl⟩, .inr rfl, .inr rfl⟩
  | poll p1 p0 => rw [effect, poll_eq]; exact ⟨.inr rfl, .inr ⟨rfl, rfl⟩, .inr ⟨rfl, rfl⟩, .inr rfl, .inr rfl⟩
  | tone v => exact ⟨.inl ⟨v, rfl⟩, .inr ⟨rfl, rfl⟩, .inr ⟨rfl, rfl⟩, .inr rfl, .inr rfl⟩
  | stop => exact ⟨.inr rfl, .inl (.inr rfl), .inl (.inr rfl), .inl (.inr (.inr rfl)), .inr rfl⟩
  | start =>
    have hduty : Instr.start = .etick ∨ Instr.start = .start ∨ Instr.start = .stop := .inr (.inl rfl)
    rw [effect, start_eq]
    split
    · exact ⟨.inr rfl, .inr ⟨rfl, rfl⟩, .inl (.inl rfl), .inl hduty, .inr rfl⟩
    · split <;> exact ⟨.inr rfl, .inr ⟨rfl, rfl⟩, .inl (.inl rfl), .inl hduty, .inr rfl⟩
  | etick =>
    rw [effect]
    cases ha : s.armed with
    | true =>
      rw [etick_armed s _ ha]
      exact ⟨.inr rfl, .inl (.inl rfl), .inr ⟨rfl, rfl⟩, .inl (.inl rfl), .inl ⟨rfl, ha, rfl⟩⟩
    | false =>
      rw [etick_disarmed s _ ha]
      exact ⟨.inr rfl, .inr ⟨rfl, rfl⟩, .inr ⟨rfl, rfl⟩, .inr rfl, .inr rfl⟩

/-- Settles O53, by the frame of the envelope half. -/
theorem envelopeElementWriters : Obligations.EnvelopeElementWriters := by
  unfold Obligations.EnvelopeElementWriters
  intro i s t h
  obtain rfl := exec_eq_next_iff.mp h
  obtain ⟨htone, hplace, hswitches, hduty, hsamples⟩ := effect_envelope_frame i s
  exact ⟨htone.resolve_right, fun hne => hplace.resolve_right (not_and_or.mpr hne),
    fun hne => hswitches.resolve_right (not_and_or.mpr hne), hduty.resolve_right, hsamples.resolve_right⟩

/-- Settles O52: of DUTY's three writers START has no effect while armed, and TONE writes the latch alone. -/
theorem armedDutyWriters : Obligations.ArmedDutyWriters := by
  unfold Obligations.ArmedDutyWriters
  refine ⟨?armed, ?tone⟩
  case armed =>
    intro i s t ha h hne
    obtain rfl := exec_eq_next_iff.mp h
    obtain hi | rfl | hi := (effect_envelope_frame i s).duty.resolve_right hne
    · exact .inl hi
    · rw [effect, start_armed _ ha] at hne
      exact absurd rfl hne
    · exact .inr hi
  case tone =>
    intro v s t h
    obtain rfl := exec_eq_next_iff.mp h
    exact ⟨rfl, rfl, rfl⟩

/-! ## What a walk keeps between its ticks -/

/-- The two states stand at the same place of the walk, with the same DUTY and the same history. -/
structure State.SameWalk (s t : State) : Prop where
  env : t.env = s.env
  idx : t.idx = s.idx
  duty : t.duty = s.duty
  samples : t.samples = s.samples

theorem State.SameWalk.trans {s t u : State} (h : s.SameWalk t) (h' : t.SameWalk u) : s.SameWalk u :=
  ⟨h'.env.trans h.env, h'.idx.trans h.idx, h'.duty.trans h.duty, h'.samples.trans h.samples⟩

/-- START keeps the walk where DUTY is at MID already or the timer is armed. -/
theorem start_sameWalk {s : State} (h : s.armed = false → s.duty = Config.params.mid) :
    s.SameWalk (s.start Config.params) := by
  cases ha : s.armed with
  | true => rw [start_armed _ ha]; exact ⟨rfl, rfl, rfl, rfl⟩
  | false =>
    cases hok : s.timerAnswer with
    | true => rw [start_granted _ ha hok]; exact ⟨rfl, rfl, (h ha).symm, rfl⟩
    | false => rw [start_denied _ ha hok]; exact ⟨rfl, rfl, rfl, rfl⟩

/-- Every operation but ETICK and STOP keeps the walk, where a disarmed DUTY is at MID (INV4). -/
theorem effect_sameWalk {i : Instr} {s : State} (htick : i ≠ .etick) (hstop : i ≠ .stop)
    (hrest : s.armed = false → s.duty = Config.params.mid) : s.SameWalk (effect i s) := by
  by_cases hstart : i = .start
  · subst hstart
    exact start_sameWalk hrest
  · obtain ⟨-, hplace, -, hduty, hsamples⟩ := effect_envelope_frame i s
    obtain ⟨henv, hidx⟩ := hplace.resolve_left (not_or.mpr ⟨htick, hstop⟩)
    exact ⟨henv, hidx, hduty.resolve_left (by simp [htick, hstart, hstop]),
      hsamples.resolve_left fun h => htick h.1⟩

/-- The armed timer stays armed in every operation but STOP. -/
theorem effect_keeps_armed {i : Instr} {s : State} (hstop : i ≠ .stop) (ha : s.armed = true) :
    (effect i s).armed = true := by
  obtain (rfl | rfl) | ⟨harmed, -⟩ := (effect_envelope_frame i s).switches
  · rw [effect, start_armed _ ha]; exact ha
  · exact absurd rfl hstop
  · exact harmed.trans ha

/-- What an arrival other than a STOP or a cycle of reset does to the walk: a tick of the armed timer, or nothing. -/
theorem perform_walk_cases {a : Arrival} {s t : State} (h : perform a s = .next t) (hk : KeepsWalking a)
    (hrest : s.armed = false → s.duty = Config.params.mid) :
    (operationOf a = some .etick ∧ s.armed = true ∧ (s.tick Config.params).SameWalk t) ∨
      ((s.armed = true → operationOf a ≠ some .etick) ∧ s.SameWalk t) := by
  obtain ⟨hreset, hstop⟩ := hk
  obtain ⟨i, ok, hop, rfl⟩ | ⟨ok, hop, rfl⟩ | ⟨-, ha, rfl⟩ | ⟨ha, -⟩ := perform_next_cases h
  · by_cases htick : i = .etick
    · subst htick
      rw [effect]
      obtain ha | ha := Bool.eq_false_or_eq_true s.armed
      · rw [etick_armed _ _ (by exact ha)]
        exact .inl ⟨hop, ha, rfl, rfl, rfl, rfl⟩
      · rw [etick_disarmed _ _ (by exact ha)]
        exact .inr ⟨fun ha' => (nomatch ha.symm.trans ha'), rfl, rfl, rfl, rfl⟩
    · refine .inr ⟨fun _ he => htick (Option.some.inj (hop.symm.trans he)), ?_⟩
      have hlevel : s.SameWalk { s with timerOk := ok } := ⟨rfl, rfl, rfl, rfl⟩
      exact hlevel.trans (effect_sameWalk htick (fun hi => hstop (hi ▸ hop)) hrest)
  · exact .inr ⟨fun _ he => (nomatch hop.symm.trans he), rfl, rfl, rfl, rfl⟩
  · exact .inr ⟨fun ha' => (nomatch ha.symm.trans ha'), rfl, rfl, rfl, rfl⟩
  · exact absurd ha hreset

/-- The armed timer stays armed in every arrival but a STOP and a cycle of reset. -/
theorem perform_keeps_armed {a : Arrival} {s t : State} (h : perform a s = .next t) (hk : KeepsWalking a)
    (ha : s.armed = true) : t.armed = true := by
  obtain ⟨hreset, hstop⟩ := hk
  obtain ⟨i, ok, hop, rfl⟩ | ⟨ok, -, rfl⟩ | ⟨-, -, rfl⟩ | ⟨hr, -⟩ := perform_next_cases h
  · exact effect_keeps_armed (fun hi => hstop (hi ▸ hop)) ha
  · exact ha
  · exact ha
  · exact absurd hr hreset

end Sys2Proof.Machine

/-! PROOF. The quadrature decoder (R100, R102, R103): its table, the runs of phase values that count, and why a result
needs the full sequence. -/

namespace Sys2Proof.Machine

/-- Settles O22: the table is finite and closed, entry by entry. -/
theorem decoderTable : Obligations.DecoderTable := by
  unfold Obligations.DecoderTable
  decide

/-! ## Runs of phase values -/

theorem decodeRun_append (d : DecState) (l l' : List Phase) :
    decodeRun d (l ++ l') =
      ((decodeRun (decodeRun d l).1 l').1, (decodeRun d l).2 + (decodeRun (decodeRun d l).1 l').2) := by
  induction l generalizing d with
  | nil => simp [decodeRun]
  | cons p l ih => simp [decodeRun, ih, Int.add_assoc]

/-- A value the decoder has settled on is sampled again without effect. -/
theorem decodeRun_replicate_settled {d : DecState} {p : Phase} (h : decoder d p = quiet d) (n : Nat) :
    decodeRun d (List.replicate n p) = (d, 0) := by
  induction n with
  | zero => rfl
  | succ n ih => simp [List.replicate_succ, decodeRun, h, quiet, ih, Direction.delta]

/-- A value sampled any positive number of times acts once, if the decoder settles on it. -/
theorem decodeRun_replicate {d d' : DecState} {p : Phase} {r : Direction} (h : decoder d p = (d', r))
    (hd : decoder d' p = quiet d') (n : Nat) : decodeRun d (List.replicate (n + 1) p) = (d', r.delta) := by
  simp [List.replicate_succ, decodeRun, h, decodeRun_replicate_settled hd]

/-- Settles O23: each value of the two sequences acts once, and the last one gives the result. -/
theorem detentSequencesCount : Obligations.DetentSequencesCount := by
  unfold Obligations.DetentSequencesCount
  intro a b c d
  constructor
  · have hbegin := decodeRun_replicate (d := .rStart) (d' := .rCwBegin) (p := 1) rfl rfl a
    have hnext := decodeRun_replicate (d := .rCwBegin) (d' := .rCwNext) (p := 0) rfl rfl b
    have hfinal := decodeRun_replicate (d := .rCwNext) (d' := .rCwFinal) (p := 2) rfl rfl c
    have hdetent := decodeRun_replicate (d := .rCwFinal) (d' := .rStart) (p := 3) rfl rfl d
    simp only [decodeRun_append, hbegin, hnext, hfinal, hdetent, Direction.delta, Int.zero_add]
  · have hbegin := decodeRun_replicate (d := .rStart) (d' := .rCcwBegin) (p := 2) rfl rfl a
    have hnext := decodeRun_replicate (d := .rCcwBegin) (d' := .rCcwNext) (p := 0) rfl rfl b
    have hfinal := decodeRun_replicate (d := .rCcwNext) (d' := .rCcwFinal) (p := 1) rfl rfl c
    have hdetent := decodeRun_replicate (d := .rCcwFinal) (d' := .rStart) (p := 3) rfl rfl d
    simp only [decodeRun_append, hbegin, hnext, hfinal, hdetent, Direction.delta, Int.zero_add]

/-! ## Debounce -/

/-- The samples a decoder state is evidence of, in their order. -/
def DecState.evidence : DecState → List Phase
  | .rStart => []
  | .rCwBegin => [1]
  | .rCwNext => [1, 0]
  | .rCwFinal => [1, 0, 2]
  | .rCcwBegin => [2]
  | .rCcwNext => [2, 0]
  | .rCcwFinal => [2, 0, 1]

/-- A step adds to the evidence at most the value it samples. -/
theorem evidence_decoder (d : DecState) (p : Phase) : (decoder d p).1.evidence.Sublist (d.evidence ++ [p]) := by
  cases d <;> revert p <;> decide

theorem evidence_decodeRun (d : DecState) (l : List Phase) :
    (decodeRun d l).1.evidence.Sublist (d.evidence ++ l) := by
  induction l generalizing d with
  | nil => simp [decodeRun]
  | cons p l ih =>
    refine (ih (decoder d p).1).trans ?_
    rw [List.append_cons]
    exact (evidence_decoder d p).append_right l

/-- The state a decoder is in after R_START tells which values were sampled. -/
theorem evidence_sublist {l : List Phase} {d : DecState} (h : (decodeRun .rStart l).1 = d) :
    d.evidence.Sublist l := h ▸ evidence_decodeRun .rStart l

/-- In a FINAL state three different values have been sampled. -/
theorem samples_of_final {l : List Phase} {d : DecState} (h : (decodeRun .rStart l).1 = d)
    (hd : d = .rCwFinal ∨ d = .rCcwFinal) : 0 ∈ l ∧ 1 ∈ l ∧ 2 ∈ l := by
  have hmem := (evidence_sublist h).subset
  obtain rfl | rfl := hd <;> exact ⟨hmem (by decide), hmem (by decide), hmem (by decide)⟩

/-- A step gives a result only from a FINAL state at p = 3, back into R_START. -/
theorem decoder_result_ne_none {d : DecState} {p : Phase} (h : (decoder d p).2 ≠ .none) :
    (decoder d p).1 = .rStart ∧ p = 3 ∧ (d = .rCwFinal ∨ d = .rCcwFinal) := by
  obtain hnone | ⟨hd, hp, hstep⟩ | ⟨hd, hp, hstep⟩ := decoder_result d p
  · exact absurd hnone h
  · exact ⟨congrArg Prod.fst hstep, hp, .inl hd⟩
  · exact ⟨congrArg Prod.fst hstep, hp, .inr hd⟩

/-- Samples of two values only give no result, since a FINAL state needs three. -/
theorem decodeRun_two_values {p q : Phase} (l : List Phase) (hl : ∀ x ∈ l, x = p ∨ x = q) :
    (decodeRun .rStart l).2 = 0 := by
  induction l using List.reverseRecOn with
  | nil => rfl
  | append_singleton l x ih =>
    have hl' : ∀ x ∈ l, x = p ∨ x = q := fun y hy => hl y (List.mem_append_left _ hy)
    have hnone : (decoder (decodeRun .rStart l).1 x).2 = .none := by
      by_contra hresult
      obtain ⟨-, -, hfinal⟩ := decoder_result_ne_none hresult
      obtain ⟨h0, h1, h2⟩ := samples_of_final rfl hfinal
      have hp0 := hl' 0 h0
      have hp1 := hl' 1 h1
      have hp2 := hl' 2 h2
      bv_omega
    rw [decodeRun_append, ih hl']
    simp [decodeRun, hnone, Direction.delta]

/-- Settles O24: a FINAL state is evidence of its three samples, and results come from FINAL states alone. -/
theorem debounceNeedsFullSequence : Obligations.DebounceNeedsFullSequence := by
  unfold Obligations.DebounceNeedsFullSequence
  exact ⟨fun _ => evidence_sublist, fun _ => evidence_sublist, fun _ _ => decoder_result_ne_none,
    fun _ _ l _ => decodeRun_two_values l⟩

end Sys2Proof.Machine

/-! PROOF. The latch (R134) and the order of POLL and ETICK (R210): what a tick reads and what it touches. -/

namespace Sys2Proof.Machine

/-- Off the two points of R134 the next envelope state is the same for either latch value. -/
theorem nextEnvelope_latch_unread {s : State} (h : ¬ s.SamplesLatch) (t t' : Bool) :
    nextEnvelope t s.env s.idx = nextEnvelope t' s.env s.idx := by
  unfold State.SamplesLatch at h
  cases he : s.env with
  | idle => exact absurd (.inl he) h
  | attack | release => rfl
  | sustain =>
    have hidx : s.idx ≠ 15 := fun hi => h (.inr ⟨he, hi⟩)
    rw [nextEnvelope, nextEnvelope, if_neg hidx, if_neg hidx]

/-- Settles O40: a tick reads the latch in its next envelope state only. -/
theorem latchReadAtTwoPoints : Obligations.LatchReadAtTwoPoints := by
  unfold Obligations.LatchReadAtTwoPoints
  intro s t v hs h
  obtain rfl := exec_eq_next_iff.mp h
  rw [exec_eq_next, effect, effect]
  obtain ha | ha := Bool.eq_false_or_eq_true s.armed
  · rw [etick_armed s _ ha, etick_armed _ _ (by exact ha), tick_eq, tick_eq, nextEnvelope_latch_unread hs s.tone v]
  · rw [etick_disarmed s _ ha, etick_disarmed _ _ (by exact ha)]
    rfl

/-- Settles O21: POLL updates the encoder half from itself, and ETICK the envelope half and the record. -/
theorem pollAndTickCommute : Obligations.PollAndTickCommute := by
  unfold Obligations.PollAndTickCommute
  intro s t u p1 p0 hpoll htick
  obtain rfl := exec_eq_next_iff.mp hpoll
  obtain rfl := exec_eq_next_iff.mp htick
  refine ⟨_, exec_eq_next _ _, exec_eq_next_iff.mpr ?_⟩
  simp only [effect, poll_eq, State.etick]
  split <;> rfl

end Sys2Proof.Machine

/-! PROOF. A run follows the keyed run of its ticks (R133 to R139): between its ticks the walk stands still, and a tick
reads of the state only its place in the walk and the latch. -/

namespace Sys2Proof.Machine

/-! ## Keyed runs from their first tick -/

/-- One tick of a keyed run: the host sets the latch, and the timer ticks. -/
def State.keyedTick (s : State) (v : Bool) : State := ({ s with tone := v }.respond 0).etick Config.params

theorem keyedRun_first (f : Nat → Bool) (n : Nat) (s : State) :
    keyedRun f (n + 1) s = keyedRun (fun k => f (k + 1)) n (s.keyedTick (f 0)) := by
  induction n with
  | zero => rfl
  | succ n ih => exact congrArg (State.keyedTick · (f (n + 1))) ih

/-- Two states at the same place with the same latch tick alike. -/
theorem State.SameWalk.tick {s t : State} (h : s.SameWalk t) (htone : t.tone = s.tone) (c : Params) :
    (s.tick c).SameWalk (t.tick c) := by
  obtain ⟨henv, hidx, -, hsamples⟩ := h
  constructor <;> simp only [tick_eq, henv, hidx, hsamples, htone]

/-- A keyed tick from the same place, its latch that of the other state. -/
theorem State.SameWalk.keyedTick {s t : State} (h : s.SameWalk t) (hs : s.armed = true) :
    (s.keyedTick t.tone).SameWalk (t.tick Config.params) ∧ (s.keyedTick t.tone).armed = true := by
  rw [State.keyedTick, etick_armed _ _ (by exact hs)]
  have hplace : ({ s with tone := t.tone }.respond 0).SameWalk t := ⟨h.env, h.idx, h.duty, h.samples⟩
  exact ⟨hplace.tick rfl _, hs⟩

/-! ## The ticks of a run -/

theorem ticksOf_cons_tick {m : Moment} (h : operationOf m.arrival = some .etick) (ms : List Moment) :
    ticksOf (m :: ms) = m :: ticksOf ms := by simp [ticksOf, h]

theorem ticksOf_cons_other {m : Moment} (h : operationOf m.arrival ≠ some .etick) (ms : List Moment) :
    ticksOf (m :: ms) = ticksOf ms := by simp [ticksOf, h]

/-- The keyed run of a run's ticks, each finding the latch as the run's tick did (R134). -/
def keyedRunOf (ms : List Moment) (s : State) : State := keyedRun (latchAt (ticksOf ms)) (ticksOf ms).length s

theorem keyedRunOf_cons_tick {m : Moment} (h : operationOf m.arrival = some .etick) (ms : List Moment) (s : State) :
    keyedRunOf (m :: ms) s = keyedRunOf ms (s.keyedTick m.before.tone) := by
  rw [keyedRunOf, ticksOf_cons_tick h, List.length_cons, keyedRun_first]
  rfl

theorem keyedRunOf_cons_other {m : Moment} (h : operationOf m.arrival ≠ some .etick) (ms : List Moment) (s : State) :
    keyedRunOf (m :: ms) s = keyedRunOf ms s := by rw [keyedRunOf, ticksOf_cons_other h, keyedRunOf]

/-- A run of an armed state walks as the keyed run of its ticks does, from any armed state at the same place. -/
theorem keyedRunOf_sameWalk_runAll (l : List Arrival) (s : State) (hl : ∀ m ∈ trail l s, KeepsWalking m.arrival)
    (hs : s.armed = true) {k : State} (hk : k.armed = true) (hsame : k.SameWalk s) :
    (keyedRunOf (trail l s) k).SameWalk (runAll l s) ∧ (runAll l s).armed = true := by
  revert k hl hs
  refine trail_runAll_induction (motive := fun s ms u => (∀ m ∈ ms, KeepsWalking m.arrival) → s.armed = true →
    ∀ {k : State}, k.armed = true → k.SameWalk s → (keyedRunOf ms k).SameWalk u ∧ u.armed = true)
    (fun s _ hs k _ hsame => ⟨hsame, hs⟩) ?_ l s
  intro a s t ms u h ih hl hs k hk hsame
  obtain ⟨hwalk, hms⟩ := List.forall_mem_cons.mp hl
  have ht := perform_keeps_armed h hwalk hs
  obtain ⟨htick, -, hstep⟩ | ⟨hother, hstep⟩ := perform_walk_cases h hwalk fun hd => (nomatch hs.symm.trans hd)
  · obtain ⟨hkeyed, hk'⟩ := hsame.keyedTick hk
    rw [keyedRunOf_cons_tick htick]
    exact ih hms ht hk' (hkeyed.trans hstep)
  · rw [keyedRunOf_cons_other (hother hs)]
    exact ih hms ht hk (hsame.trans hstep)

/-- Settles O42, by the induction over the run's moments. -/
theorem runsFollowKeyedRun : Obligations.RunsFollowKeyedRun := by
  unfold Obligations.RunsFollowKeyedRun
  intro l s hs hl
  obtain ⟨⟨henv, hidx, hduty, hsamples⟩, harmed⟩ :=
    keyedRunOf_sameWalk_runAll l s (fun m hm => hl _ (arrival_mem_of_mem_trail hm)) hs hs ⟨rfl, rfl, rfl, rfl⟩
  exact ⟨henv, hidx, hduty, hsamples, harmed⟩

end Sys2Proof.Machine

/-! PROOF. Continuity (R136): the sample of a tick is a neighbour of DUTY wherever DUTY is on the walk, and the tick
leaves it there; with SMOOTH tables no pair of neighbours jumps further than a step inside the tables. -/

namespace Sys2Proof.Machine

/-! ## The sample of a tick as an entry of a scaled table -/

section
variable {c : Params} {s : State}

theorem tickSample_sustain_eq (c : Params) {i : BitVec 6} (h : i.toNat < 16) :
    tickSample c .sustain i = sustainSample c ⟨i.toNat, h⟩ := tickSample_sustain c h

theorem tickSample_release_eq (c : Params) (i : BitVec 6) :
    tickSample c .release i = attackSample c ⟨63 - i.toNat, Nat.sub_lt_succ 63 _⟩ := tickSample_release c i

/-! ## One tick of the walk -/

/-- The tick's sample is a neighbour of the sample the walk wrote last. -/
theorem State.DutyOnWalk.neighbours (h : s.DutyOnWalk c) : Neighbours c s.duty (tickSample c s.env s.idx) := by
  unfold State.DutyOnWalk at h
  cases he : s.env with
  | idle =>
    rw [he] at h
    obtain ⟨-, hd | hd⟩ := h <;> rw [hd]
    · exact .rest
    · exact .leave
  | attack =>
    rw [he] at h
    obtain ⟨hi, hd⟩ | ⟨i, hi, hd⟩ := h <;> rw [hd]
    · rw [hi]
      exact .enter
    · exact .rise i ⟨s.idx.toNat, s.idx.isLt⟩ hi
  | sustain =>
    rw [he] at h
    obtain ⟨hi, hd | hd⟩ | ⟨j, hi, hj, hd⟩ := h <;> rw [hd]
    · rw [hi]
      exact .toSustain
    · rw [hi]
      exact .again
    · rw [tickSample_sustain_eq c (by omega)]
      exact .hold j _ hi
  | release =>
    rw [he] at h
    obtain ⟨hi, hd⟩ | ⟨i, hi, hd⟩ := h <;> rw [hd, tickSample_release_eq]
    · rw [hi]
      exact .toRelease
    · exact .fall _ i (by simp only; omega)

/-- On the walk, INV2's bound of the sustain index holds. -/
theorem State.DutyOnWalk.sustain_idx_lt (h : s.DutyOnWalk c) (he : s.env = .sustain) : s.idx.toNat < 16 := by
  unfold State.DutyOnWalk at h
  rw [he] at h
  obtain ⟨hi, -⟩ | ⟨j, hi, hj, -⟩ := h
  · rw [hi]; decide
  · omega

/-- The tick leaves DUTY on the walk. -/
theorem State.DutyOnWalk.tick (h : s.DutyOnWalk c) : (s.tick c).DutyOnWalk c := by
  have hsustain := h.sustain_idx_lt
  unfold State.DutyOnWalk at h ⊢
  rw [tick_eq]
  rcases nextEnvelope_cases s.tone s.env s.idx with
    ⟨he, -, hn⟩ | ⟨he, -, hn⟩ | ⟨he, hi, hn⟩ | ⟨he, hi, hn⟩ | ⟨he, hi, hn⟩ | ⟨he, hi, -, hn⟩ | ⟨he, hi, -, hn⟩ |
    ⟨he, hi, hn⟩ | ⟨he, hi, hn⟩ <;>
    rw [he] at h hn <;> simp only [he, hn]
  · exact ⟨h.1, .inl rfl⟩
  · exact .inl ⟨trivial, rfl⟩
  · exact .inr ⟨⟨s.idx.toNat, s.idx.isLt⟩, by bv_omega, rfl⟩
  · rw [hi]
    exact .inl ⟨trivial, .inl rfl⟩
  · rw [tickSample_sustain_eq c (hsustain he)]
    have hlt := hsustain he
    exact .inr ⟨⟨s.idx.toNat, hlt⟩, by bv_omega, by simp only; bv_omega, rfl⟩
  · rw [hi]
    exact .inl ⟨trivial, .inr rfl⟩
  · rw [hi]
    exact .inl ⟨trivial, rfl⟩
  · rw [tickSample_release_eq]
    exact .inr ⟨⟨63 - s.idx.toNat, Nat.sub_lt_succ 63 _⟩, by simp only; bv_omega, rfl⟩
  · rw [hi]
    exact ⟨trivial, .inr rfl⟩

/-- Being on the walk is said of the place and DUTY alone. -/
theorem State.DutyOnWalk.of_sameWalk {t : State} (h : s.DutyOnWalk c) (hst : s.SameWalk t) : t.DutyOnWalk c := by
  unfold State.DutyOnWalk at h ⊢
  rwa [hst.env, hst.idx, hst.duty]

end

/-! ## Runs -/

/-- The samples a run from s to u emits, chained from DUTY on through neighbours; the walk is not left. -/
def WalksOn (c : Params) (s u : State) : Prop :=
  u.DutyOnWalk c ∧ ∃ new, u.samples = s.samples ++ new ∧ (s.duty :: new).IsChain (Neighbours c)

theorem WalksOn.refl {c : Params} {s : State} (h : s.DutyOnWalk c) : WalksOn c s s :=
  ⟨h, [], (List.append_nil _).symm, .singleton _⟩

theorem WalksOn.of_sameWalk {c : Params} {s t u : State} (hst : s.SameWalk t) (h : WalksOn c t u) : WalksOn c s u := by
  unfold WalksOn at h ⊢
  rwa [hst.samples, hst.duty] at h

theorem WalksOn.of_tick {c : Params} {s u : State} (hs : s.DutyOnWalk c) (h : WalksOn c (s.tick c) u) :
    WalksOn c s u := by
  obtain ⟨hu, new, hsamples, hchain⟩ := h
  refine ⟨hu, tickSample c s.env s.idx :: new, ?_, .cons_cons hs.neighbours hchain⟩
  rw [hsamples, tick_eq, List.append_assoc, List.singleton_append]

/-- INV4's clause for DUTY. -/
theorem State.Inv.disarmed_duty {s : State} (h : s.Inv) (hd : s.armed = false) : s.duty = Config.params.mid := by
  obtain ⟨-, -, hduty⟩ := h.disarmedAtRest hd
  exact hduty

/-- A run without STOP and reset walks on: each arrival is a tick or leaves the walk where it is. -/
theorem walksOn_runAll {l : List Arrival} (hl : ∀ a ∈ l, KeepsWalking a) {s : State} (hinv : s.Inv)
    (hwalk : s.DutyOnWalk Config.params) : WalksOn Config.params s (runAll l s) := by
  induction l generalizing s with
  | nil => exact .refl hwalk
  | cons a rest ih =>
    obtain ⟨ha, hrest⟩ := List.forall_mem_cons.mp hl
    obtain ⟨t, h⟩ | ⟨w, ok, -, -, h⟩ := perform_cases a s
    · rw [runAll_cons h]
      have hinv' := perform_keeps_inv hinv h
      obtain ⟨-, -, hstep⟩ | ⟨-, hstep⟩ := perform_walk_cases h ha hinv.disarmed_duty
      · exact .of_tick hwalk (.of_sameWalk hstep (ih hrest hinv' (hwalk.tick.of_sameWalk hstep)))
      · exact .of_sameWalk hstep (ih hrest hinv' (hwalk.of_sameWalk hstep))
    · rw [runAll_refused h]
      exact .refl hwalk

/-- Settles O43, by the induction over the arrivals. -/
theorem consecutiveSamplesAreNeighbours : Obligations.ConsecutiveSamplesAreNeighbours := by
  unfold Obligations.ConsecutiveSamplesAreNeighbours
  refine ⟨⟨rfl, .inl rfl⟩, fun l s hinv hwalk hl => ?_⟩
  obtain ⟨hend, new, hsamples, hchain⟩ := walksOn_runAll hl hinv hwalk
  exact ⟨hend, new, hsamples, List.isChain_iff_getElem.mp hchain⟩

/-! ## SMOOTH tables -/

theorem gap_self (x : Sample) : gap x x = 0 := by simp [gap]

theorem gap_comm (x y : Sample) : gap x y = gap y x := by
  unfold gap
  omega

/-- Settles O44: each pair of neighbours is a step inside a table, a boundary, or one of these backwards. -/
theorem smoothTablesBoundJumps : Obligations.SmoothTablesBoundJumps := by
  unfold Obligations.SmoothTablesBoundJumps
  rintro c m x y ⟨hattack, hsustain⟩ ⟨henter, htoSustain, hagain, htoRelease⟩ hxy
  cases hxy with
  | rest => rw [gap_self]; exact Nat.zero_le m
  | enter => exact henter
  | rise i j h => exact hattack i j h
  | toSustain => exact htoSustain
  | hold i j h => exact hsustain i j h
  | again => exact hagain
  | toRelease => exact htoRelease
  | fall i j h => rw [gap_comm]; exact hattack i j h
  | leave => rw [gap_comm]; exact henter

end Sys2Proof.Machine

/-! PROOF. The latencies of the key (R137, R138): a keyed run walks on from any entry of a table, and the latch decides
where it goes on at the table's end. -/

namespace Sys2Proof.Machine

section
variable {f : Nat → Bool} {s : State} {n i m : Nat} {env : Env} {out : List Sample}

/-- From any entry of a table a keyed run walks on within the table, whatever the latch. -/
theorem State.AtEntry.walk_from (h : (keyedRun f n s).AtEntry env (BitVec.ofNat 6 i) out)
    (hm : i + m ≤ env.lastIndex) :
    ∃ out', (keyedRun f (n + m) s).AtEntry env (BitVec.ofNat 6 (i + m)) out' := by
  induction m with
  | zero => exact ⟨out, h⟩
  | succ m ih =>
    obtain ⟨out', hwalk⟩ := ih (Nat.le_of_succ_le hm)
    have htick := hwalk.tick
    rw [nextEnvelope_ofNat (i := i + m) hm] at htick
    exact ⟨_, htick⟩

/-- The tick of the table's last entry leads on as the latch then says. -/
theorem State.AtEntry.walk_out (h : (keyedRun f n s).AtEntry env (BitVec.ofNat 6 i) out)
    (hm : i + m = env.lastIndex) {next : Env × BitVec 6}
    (hnext : nextEnvelope (f (n + m)) env (BitVec.ofNat 6 env.lastIndex) = next) :
    ∃ out', (keyedRun f (n + (m + 1)) s).AtEntry next.1 next.2 out' := by
  obtain ⟨out', hwalk⟩ := h.walk_from hm.le
  have htick := hwalk.tick
  rw [hm, hnext] at htick
  exact ⟨_, htick⟩

end

/-- A state at some place of its walk stands at that entry before the first tick. -/
theorem atEntry_start (f : Nat → Bool) {s : State} (ha : s.armed = true) {env : Env} (he : s.env = env) :
    (keyedRun f 0 s).AtEntry env (BitVec.ofNat 6 s.idx.toNat) s.samples :=
  ⟨ha, he, by rw [BitVec.ofNat_toNat, BitVec.setWidth_eq]; rfl, rfl⟩

/-! ## Key up -/

/-- With the latch clear the sustain cycle runs to its end, and the release begins there. -/
theorem State.AtEntry.sustain_key_up {s : State} {n i m : Nat} {out : List Sample}
    (h : (keyedRun (fun _ => false) n s).AtEntry .sustain (BitVec.ofNat 6 i) out) (hm : i + m ≤ 16) (hi : i ≤ 15) :
    (keyedRun (fun _ => false) (n + m) s).env = if i + m = 16 then .release else .sustain := by
  split
  · next hend =>
    obtain ⟨k, rfl⟩ : ∃ k, m = k + 1 := ⟨m - 1, by omega⟩
    obtain ⟨out', hout⟩ := h.walk_out (m := k) (next := (.release, 0)) (Nat.succ.inj hend) rfl
    exact hout.env
  · next hend =>
    obtain ⟨out', hwalk⟩ := h.walk_from (m := m) (Nat.le_of_lt_succ (lt_of_le_of_ne hm hend))
    exact hwalk.env

/-- Settles O45: the walk to the end of the sustain cycle, and before it to the end of the attack. -/
theorem keyUpLatency : Obligations.KeyUpLatency := by
  unfold Obligations.KeyUpLatency
  refine ⟨?sustain, ?attack⟩
  case sustain =>
    intro s n ha he hi hn
    have h := (atEntry_start (fun _ => false) ha he).sustain_key_up hn hi
    rwa [Nat.zero_add] at h
  case attack =>
    intro s n ha he hn
    have h := atEntry_start (fun _ => false) ha he
    split
    · next hlt =>
      obtain ⟨out, hwalk⟩ := h.walk_from (m := n) (Nat.le_of_lt_succ hlt)
      rw [Nat.zero_add] at hwalk
      exact hwalk.env
    · next hge =>
      have hidx := s.idx.isLt
      obtain ⟨out, hsustain⟩ := h.walk_out (m := 63 - s.idx.toNat) (next := (.sustain, 0))
        (Nat.add_sub_of_le (Nat.le_of_lt_succ hidx)) rfl
      have hup := State.AtEntry.sustain_key_up (i := 0) (m := n - (64 - s.idx.toNat)) hsustain (by omega) (by omega)
      rw [show 0 + (63 - s.idx.toNat + 1) + (n - (64 - s.idx.toNat)) = n by omega] at hup
      obtain hlt | hend : s.idx.toNat + n < 64 + 16 ∨ s.idx.toNat + n = 64 + 16 := by omega
      · rw [hup, if_neg (by omega), if_pos hlt]
      · rw [hup, if_pos (by omega), if_neg (by omega)]

/-! ## Key down -/

/-- Settles O46: the IDLE tick samples the latch, and the rest of the release comes before it. -/
theorem keyDownLatency : Obligations.KeyDownLatency := by
  unfold Obligations.KeyDownLatency
  refine ⟨?idle, ?release⟩
  case idle =>
    intro s ha he
    have h := atEntry_start (fun _ => true) ha he
    exact ⟨h.tick.env, h.tick_duty, h.tick.tick_duty⟩
  case release =>
    intro s n ha he hn
    have h := atEntry_start (fun _ => true) ha he
    have hidx := s.idx.isLt
    obtain ⟨out, hidle⟩ := h.walk_out (m := 63 - s.idx.toNat) (next := (.idle, 0))
      (Nat.add_sub_of_le (Nat.le_of_lt_succ hidx)) rfl
    rw [show 0 + (63 - s.idx.toNat + 1) = 64 - s.idx.toNat by omega] at hidle
    obtain hlt | heq | heq : s.idx.toNat + n < 64 ∨ n = 64 - s.idx.toNat ∨ n = 64 - s.idx.toNat + 1 := by omega
    · obtain ⟨out', hwalk⟩ := h.walk_from (m := n) (Nat.le_of_lt_succ hlt)
      rw [Nat.zero_add] at hwalk
      rw [if_pos hlt]
      exact hwalk.env
    · rw [if_neg (by omega), if_pos (by omega), heq]
      exact hidle.env
    · rw [if_neg (by omega), if_neg (by omega), heq]
      exact hidle.tick.env

end Sys2Proof.Machine
